-- ==== Sys2Proof/Word.lean ====
section
/-! DEFINITION. The widths CK32-PKT's values have: u8, u16 and u32 (spec R9, R45). -/

namespace Sys2Proof

/-- u8: a byte of the buffer, of a port or of a command word (R9). -/
abbrev Byte := BitVec 8

/-- u16: the length field and the version pair (R9, R8). -/
abbrev Half := BitVec 16

/-- u32: a register, a checksum, an offset or a command word (R9, R8). -/
abbrev Word := BitVec 32

end Sys2Proof
end

