-- ==== Sys2Proof/Syntax.lean ====
section
/-! DEFINITION. The commands of CK32-PKT, one constructor per row of spec/opcode_table.json (R84). -/

namespace Sys2Proof

/-- A command (R2, R84). A CI command carries its IMM8 operand, an unsigned byte taken as is (R82); every other
operand comes from a register (R83). -/
inductive Instr where
  /-- 0x00 NOP (R110) -/
  | nop
  /-- 0x01 CRC_INIT (R125) -/
  | crcInit
  /-- 0x02 CRC_BYTE with the data byte (R126) -/
  | crcByte (imm : Byte)
  /-- 0x03 CRC_BUF (R127) -/
  | crcBuf
  /-- 0x04 CRC_CALC (R128) -/
  | crcCalc
  /-- 0x05 CRC_CHECK (R129) -/
  | crcCheck
  /-- 0x10 ENCODE with the frame's command byte (R143) -/
  | encode (cmd : Byte)
  /-- 0x11 DECLEN (R144) -/
  | declen
  /-- 0x20 PROBE (R180) -/
  | probe
  /-- 0x21 RXHDR (R163) -/
  | rxHdr
  /-- 0x22 RXBODY (R164) -/
  | rxBody
  /-- 0x23 RXFLUSH (R167) -/
  | rxFlush
  /-- 0x24 RXRAW (R162) -/
  | rxRaw
  /-- 0xFF DEADLINE (R113, R114) -/
  | deadline
  deriving DecidableEq, Repr

end Sys2Proof
end

