-- ==== Sys2Proof/WellFormed.lean ====
section
/-! DEFINITION. When a command word is legal (R80, R81, R85): three checks on its fields. -/

namespace Sys2Proof

/-- A command word taken apart into its fields (R80). -/
structure CommandWord where
  /-- OP, bits [7:0] -/
  op : Byte
  /-- IMM8, bits [15:8] -/
  imm8 : Byte
  /-- RSV, bits [31:16] -/
  rsv : Half
  deriving DecidableEq, Repr

/-- The two formats (R81). -/
inductive Format where
  /-- C0: IMM8 must be 0 -/
  | c0
  /-- CI: IMM8 is the operand -/
  | ci
  deriving DecidableEq, Repr

/-- The format of the commands whose OP is in the opcode map (R84), none for an OP that is not. -/
def formatOf (op : Byte) : Option Format :=
  if op = 0x02#8 ∨ op = 0x10#8 then some .ci
  else if op ∈ [0x00#8, 0x01#8, 0x03#8, 0x04#8, 0x05#8, 0x11#8, 0x20#8, 0x21#8, 0x22#8, 0x23#8, 0x24#8, 0xFF#8]
  then some .c0
  else none

/-- RSV must be 0 (R80). -/
def CommandWord.rsvClear (f : CommandWord) : Bool := f.rsv == 0#16

/-- OP must be in the opcode map (R84). -/
def CommandWord.opKnown (f : CommandWord) : Bool := (formatOf f.op).isSome

/-- IMM8 must be 0 in format C0 (R80, R81). -/
def CommandWord.immAllowed (f : CommandWord) : Bool := formatOf f.op != some .c0 || f.imm8 == 0#8

/-- Legality of a command word (R85). -/
def CommandWord.wellFormed (f : CommandWord) : Bool := f.rsvClear && f.opKnown && f.immAllowed

/-- The fields of a command's word (R84, R88). -/
def Instr.fields : Instr → CommandWord
  | .nop => ⟨0x00, 0, 0⟩
  | .crcInit => ⟨0x01, 0, 0⟩
  | .crcByte imm => ⟨0x02, imm, 0⟩
  | .crcBuf => ⟨0x03, 0, 0⟩
  | .crcCalc => ⟨0x04, 0, 0⟩
  | .crcCheck => ⟨0x05, 0, 0⟩
  | .encode cmd => ⟨0x10, cmd, 0⟩
  | .declen => ⟨0x11, 0, 0⟩
  | .probe => ⟨0x20, 0, 0⟩
  | .rxHdr => ⟨0x21, 0, 0⟩
  | .rxBody => ⟨0x22, 0, 0⟩
  | .rxFlush => ⟨0x23, 0, 0⟩
  | .rxRaw => ⟨0x24, 0, 0⟩
  | .deadline => ⟨0xFF, 0, 0⟩

/-- A command is well formed when its word is legal. Operands have exactly their field's width, so every term is. -/
def Instr.wellFormed (i : Instr) : Bool := i.fields.wellFormed

end Sys2Proof
end

