-- ==== Sys2Proof/Decode.lean ====
section
/-! DEFINITION. The command decoder, total on every 32-bit word and rejecting by name (R80 to R85), and the encoder
(R84, R88). A command word is presented whole, in one word access (R80): there is no byte stream to decode. -/

namespace Sys2Proof

/-- Why a word is illegal (R85). -/
inductive Reject where
  /-- RSV /= 0 -/
  | reservedBits
  /-- OP not in the opcode map -/
  | unknownOpcode (op : Byte)
  /-- a C0 word with IMM8 /= 0 -/
  | immediateNotZero
  deriving DecidableEq, Repr

/-- The fields of a word (R80). -/
def unpack (w : Word) : CommandWord :=
  ⟨w.extractLsb' 0 8, w.extractLsb' 8 8, w.extractLsb' 16 16⟩

/-- The word of some fields (R80). -/
def pack (f : CommandWord) : Word := f.rsv ++ f.imm8 ++ f.op

/-- A C0 command needs IMM8 = 0 (R81). -/
def decodeC0 (imm8 : Byte) (i : Instr) : Except Reject Instr :=
  if imm8 = 0 then .ok i else .error .immediateNotZero

/-- The row OP selects, RSV being 0 (R84). -/
def decodeFields (op imm8 : Byte) : Except Reject Instr :=
  if op = 0x00 then decodeC0 imm8 .nop
  else if op = 0x01 then decodeC0 imm8 .crcInit
  else if op = 0x02 then .ok (.crcByte imm8)
  else if op = 0x03 then decodeC0 imm8 .crcBuf
  else if op = 0x04 then decodeC0 imm8 .crcCalc
  else if op = 0x05 then decodeC0 imm8 .crcCheck
  else if op = 0x10 then .ok (.encode imm8)
  else if op = 0x11 then decodeC0 imm8 .declen
  else if op = 0x20 then decodeC0 imm8 .probe
  else if op = 0x21 then decodeC0 imm8 .rxHdr
  else if op = 0x22 then decodeC0 imm8 .rxBody
  else if op = 0x23 then decodeC0 imm8 .rxFlush
  else if op = 0x24 then decodeC0 imm8 .rxRaw
  else if op = 0xFF then decodeC0 imm8 .deadline
  else .error (.unknownOpcode op)

/-- The command decoder (R84, R85). -/
def decode (w : Word) : Except Reject Instr :=
  let f := unpack w
  if f.rsv = 0 then decodeFields f.op f.imm8 else .error .reservedBits

/-- The word of a command (R84, R88). -/
def encode (i : Instr) : Word := pack i.fields

/-- The bits that tell a row from the others: `(w & mask) = match` (R84). -/
def Instr.mask : Instr → Word
  | .crcByte _ => 0xFFFF00FF
  | .encode _ => 0xFFFF00FF
  | _ => 0xFFFFFFFF

/-- The 32-bit word an instruction of `nbits` bits numbered `w` is: bits above `nbits` are 0. Every row has 32. -/
def tableWord (nbits w : Nat) : Word := BitVec.ofNat 32 (w % 2 ^ nbits)

/-- What the decoder reads from an instruction whose bits are `w`. -/
def decodeTableWord (nbits w : Nat) : Option Instr :=
  match decode (tableWord nbits w) with
  | .ok i => some i
  | .error _ => none

end Sys2Proof
end

