-- ==== Sys2Proof/Config.lean ====
section
/-! DEFINITION. What one CK32-PKT instance fixes (its two OPEN parameters, R8) and the constants of the block. -/

namespace Sys2Proof

/-- The parameters of one instance (R8, D4, D5). No step changes them; they stand in State only because `step` takes
nothing else (assumptions 1 and 2). -/
structure Config where
  /-- BUF_BYTES = 8 * 2^bufExp: a power of two from 8 to 65536, exactly the values R8 allows. -/
  bufExp : Fin 14
  /-- BASE: the block's base address in the host's own address space (R60). -/
  base : Nat
  deriving DecidableEq, Repr

/-- BUF_BYTES, the size of the buffer in bytes (R8, R31). -/
def Config.bufBytes (c : Config) : Nat := 8 * 2 ^ c.bufExp.val

/-- DESIGN CHOICE (assumptions 1 and 2): the recommended BUF_BYTES = 65536 and BASE = 0. -/
def Config.recommended : Config := ⟨13, 0⟩

/-- The reflected checksum polynomial (R8, R120). -/
def Config.crcPoly : Word := 0xEDB88320#32

/-- The checksum's initial value (R8, R122). -/
def Config.crcInit : Word := 0xFFFFFFFF#32

/-- The magic constant's four bytes, first byte first (R8, R37). -/
def Config.magicBytes : List Byte := [0x50#8, 0x00#8, 0x49#8, 0x00#8]

/-- What register MAGIC reads (R37). -/
def Config.magicWord : Word := 0x00490050#32

/-- The largest payload ENCODE takes (R8, R146). -/
def Config.maxPayload : Nat := 65534

/-- The probe header's length in bytes (R8, R180). -/
def Config.headerBytes : Nat := 8

/-- Offset of the first register past the register region (R62, R63). -/
def Config.regionEnd : Nat := 0x30

/-- Offset of the BUF window (R31, R60). -/
def Config.bufWindow : Nat := 0x10000

end Sys2Proof
end

