-- ==== Sys2Proof/Machine/State.lean ====
section
/-! DEFINITION. The state of CK32-PKT (10_state.md), the outside agents' steps (00_scope.md section 4, 60_exceptions.md
section 4), the reasons a step can stop, and the state after reset (R230). -/

namespace Sys2Proof.Machine

/-- The size of a host access (R61). -/
inductive Size where
  | byte
  | half
  | word
  deriving DecidableEq, Repr

/-- The data of a host access, of exactly its size (R61). -/
inductive Datum where
  | byte (v : Byte)
  | half (v : Half)
  | word (v : Word)
  deriving DecidableEq, Repr

/-- The kind of a host access: a read of n bytes or a write of a value (R61). -/
inductive Transfer where
  | read (n : Size)
  | write (d : Datum)
  deriving DecidableEq, Repr

/-- What a host access completes with (R61). -/
inductive Response where
  /-- a write's OKAY -/
  | okay
  /-- a read's OKAY and its data -/
  | data (d : Datum)
  /-- the access was refused (R205) -/
  | busError
  deriving DecidableEq, Repr

/-- One step of an agent outside the engine, or a turn of the engine (R7, R104, R216, R218). -/
inductive Event where
  /-- a host access at a block offset (R61) -/
  | host (off : Word) (t : Transfer)
  /-- a host access at an address of the host's own space (R60) -/
  | hostAt (addr : Nat) (t : Transfer)
  /-- a turn of the engine (R104) -/
  | engine
  /-- the RX link appends a byte (R40) -/
  | rxByte (b : Byte)
  /-- the RX link signals end-of-stream (R40) -/
  | rxEnd
  /-- the TX link sets or clears TXREADY (R42) -/
  | txReady (v : Bool)
  /-- the reset input (R230) -/
  | reset
  deriving DecidableEq, Repr

/-- STATUS.CLASS (R22, R24). -/
inductive ProbeClass where
  | none
  | detected
  | notDetected
  deriving DecidableEq, Repr

/-- STATUS.RESULT (R23). -/
inductive Result where
  | ok
  | timedOut
  | closed
  | truncatedHeader
  | payloadTooLarge
  | range
  | illegal
  deriving DecidableEq, Repr

/-- The stored fields of STATUS (R22). BUSY is not among them: it is 1 exactly when a job is in progress (R36). -/
structure Status where
  done : Bool
  cls : ProbeClass
  result : Result
  matched : Bool
  op : Byte
  deriving DecidableEq, Repr

/-- The commands that can be in progress (R106). -/
inductive JobOp where
  | crcBuf
  | crcCalc
  | crcCheck
  | encode
  | probe
  | rxHdr
  | rxBody
  | rxRaw
  deriving DecidableEq, Repr

/-- The engine's job record (R36). A field its start rule does not give is 0 and is not read (assumption 10). -/
structure Job where
  op : JobOp
  /-- buffer base latched from ADDR -/
  a : Word := 0
  /-- total byte count -/
  n : Word
  /-- bytes transferred so far -/
  i : Word := 0
  /-- ENCODE's command byte -/
  c : Byte := 0
  /-- assembly register of RXHDR and RXBODY -/
  acc : Word := 0
  deriving DecidableEq, Repr

/-- BUF's written bytes, by index, indexes strictly rising (R31). An unlisted index is UNDEF. -/
abbrev Memory := List Host.Cell

/-- The host-visible registers (R20). -/
inductive Reg where
  | cmd
  | status
  | addr
  | len
  | crc
  | crcOut
  | claim
  | dlen
  | ver
  | rxCnt
  | txCnt
  | magic
  deriving DecidableEq, Repr

/-- Where a legal host access lands (R60). -/
inductive Place where
  | reg (r : Reg)
  | buf (index : Nat)
  deriving DecidableEq, Repr

/-- The first item of the RX port (R40). -/
inductive RxHead where
  | byte (b : Byte)
  | eos
  | empty
  deriving DecidableEq, Repr

/-- Everything CK32-PKT and its ports hold. -/
structure State where
  /-- the instance's parameters; no step changes them (R8) -/
  cfg : Config
  /-- STATUS's stored fields (R22) -/
  status : Status
  /-- ADDR (R27) -/
  addr : Word
  /-- LEN (R28) -/
  len : Word
  /-- CRC, the running, not yet complemented checksum (R29) -/
  crc : Word
  /-- CLAIM (R32) -/
  claim : Word
  /-- DLEN[15:0] (R33) -/
  dlen : Half
  /-- VER[15:0] (R34) -/
  ver : Half
  /-- RXCNT (R35) -/
  rxCnt : Word
  /-- TXCNT (R35) -/
  txCnt : Word
  /-- BUF (R31) -/
  buf : Memory
  /-- the job in progress (R36) -/
  job : Option Job
  /-- RXQ, the bytes not yet taken, first byte first (R40) -/
  rxq : List Byte
  /-- RXEOS (R40, R41) -/
  rxEos : Bool
  /-- TXOUT, the bytes the link has accepted, first byte first (R42) -/
  txOut : List Byte
  /-- TXREADY (R42) -/
  txReady : Bool
  /-- the model's own: the outside agents' steps to come, first first (assumption 3) -/
  agenda : List Event
  /-- the model's own: what the last host access completed with (assumption 5) -/
  resp : Option Response
  deriving DecidableEq, Repr

/-- Why a step has no next state. -/
inductive Fault where
  /-- A read of BUF byte `index`, which nothing has written since reset (R31, R66, R203): raised by a host read of the
  BUF window, DECLEN, and the engine steps of CRC_BUF, CRC_CALC, CRC_CHECK and ENCODE. Safe: the hardware returns some
  byte and goes on, the model stops (assumption 6). -/
  | undefByte (index : Nat)
  /-- An engine access to a BUF index >= BUF_BYTES, which does not exist (R31): raised by `State.bufRead` and
  `State.bufWrite` in states no run reaches, since the range checks come first (R105). Safe (assumption 13). -/
  | outsideBuf (index : Nat)
  deriving DecidableEq, Repr

/-- Why an instruction has no meaning. -/
inductive Refusal where
  /-- An arm of `exec` whose instruction has no meaning yet; no arm raises it. Safe: it stops the run. -/
  | notModelled (mnemonic : String)
  deriving DecidableEq, Repr

/-- What a step answers. -/
abbrev Answer := Host.Outcome State Fault Refusal

/-- STATUS = 0 (R230). -/
def Status.reset : Status := ⟨false, .none, .ok, false, 0x00⟩

/-- The machine right after power-on reset (R230). The ports' values are DESIGN CHOICES (assumption 7), as are the
parameters (assumptions 1 and 2). -/
def State.reset : State where
  cfg := .recommended
  status := .reset
  addr := 0
  len := 0
  crc := 0xFFFFFFFF
  claim := 0
  dlen := 0
  ver := 0
  rxCnt := 0
  txCnt := 0
  buf := []
  job := none
  rxq := []
  rxEos := false
  txOut := []
  txReady := true
  agenda := []
  resp := none

end Sys2Proof.Machine
end

