-- ==== Sys2Proof/Machine/Ops.lean ====
section
/-! DEFINITION. The named operations over the buffer, the job, the ports, the host's response and reset. CK32-PKT has no
exception entry and no return from one (R208, R209): a refused host access is `State.busError`, the one shared way a
condition of the bus is reported (R202, R205). -/

namespace Sys2Proof.Machine

/-- The byte listed at index `a`, none when it is UNDEF (R31). -/
def Memory.read : Memory → Nat → Option Byte
  | [], _ => none
  | (k, v) :: m, a => if a = k then some v else Memory.read m a

/-- The memory with byte `b` at index `a`, kept in the order of the indexes (R11 BufWrite). -/
def Memory.write : Memory → Nat → Byte → Memory
  | [], a, b => [(a, b)]
  | (k, v) :: m, a, b =>
    if a < k then (a, b) :: (k, v) :: m
    else if a = k then (a, b) :: m
    else (k, v) :: Memory.write m a b

/-- The canonical form: indexes strictly rising (an unlisted index is UNDEF, which no byte value equals). -/
abbrev Memory.wf (m : Memory) : Prop := m.Pairwise (fun c d => c.1 < d.1)

/-- Every listed index is below `bound`. -/
abbrev Memory.within (m : Memory) (bound : Nat) : Prop := ∀ c ∈ m, c.1 < bound

/-- BufRead(a): a byte of BUF; an UNDEF byte faults (R11, R31). -/
def State.bufRead (s : State) (a : Nat) : Except Fault Byte :=
  if a < s.cfg.bufBytes then
    match s.buf.read a with
    | some b => .ok b
    | none => .error (.undefByte a)
  else .error (.outsideBuf a)

/-- BufWrite(a, b): the byte becomes defined (R11, R31). -/
def State.bufWrite (s : State) (a : Nat) (b : Byte) : Except Fault State :=
  if a < s.cfg.bufBytes then .ok { s with buf := s.buf.write a b }
  else .error (.outsideBuf a)

/-- BUF[a : a + n], lowest index first (R10). -/
def State.readSlice (s : State) (a : Nat) : Nat → Except Fault (List Byte)
  | 0 => .ok []
  | n + 1 =>
    match s.bufRead a with
    | .error f => .error f
    | .ok b =>
      match State.readSlice s (a + 1) n with
      | .error f => .error f
      | .ok bs => .ok (b :: bs)

/-- Bytes written to BUF from index `a` up, in order (R65). -/
def State.writeSlice (s : State) (a : Nat) : List Byte → Except Fault State
  | [] => .ok s
  | b :: bs =>
    match s.bufWrite a b with
    | .error f => .error f
    | .ok t => State.writeSlice t (a + 1) bs

/-- STATUS.BUSY: 1 exactly when J is not none (R22, R36). -/
def State.busy (s : State) : Bool := s.job.isSome

/-- The host access completes with `r` (R61). -/
def State.respond (s : State) (r : Response) : State := { s with resp := some r }

/-- raise BusError: the access is refused and changes nothing of the block or its ports (R11, R205). -/
def State.busError (s : State) : State := s.respond .busError

/-- A job starts: BUSY becomes 1 (R106, R127). -/
def State.start (s : State) (j : Job) : State := { s with job := some j }

/-- RxHead() (R11, R40): bytes waiting come before EOS (R41). -/
def State.rxHead (s : State) : RxHead :=
  match s.rxq with
  | b :: _ => .byte b
  | [] => if s.rxEos then .eos else .empty

/-- RxTake() with the count R160 keeps: the first byte leaves RXQ and RXCNT counts it (R11, R35). -/
def State.rxTake (s : State) : State := { s with rxq := s.rxq.tail, rxCnt := s.rxCnt + 1 }

/-- TxPut(b) with the count R143 keeps: the link accepts b and TXCNT counts it (R11, R42). -/
def State.txPut (s : State) (b : Byte) : State := { s with txOut := s.txOut ++ [b], txCnt := s.txCnt + 1 }

/-- The RX link appends a byte; it never does after EOS (R40, R41, R218; assumption 12). -/
def State.linkAppend (s : State) (b : Byte) : State :=
  if s.rxEos then s else { s with rxq := s.rxq ++ [b] }

/-- The RX link signals end-of-stream, for good (R40, R41). -/
def State.linkEnd (s : State) : State := { s with rxEos := true }

/-- The TX link sets or clears TXREADY (R42). -/
def State.linkReady (s : State) (v : Bool) : State := { s with txReady := v }

/-- The reset input (R230): registers to their reset values, J none, BUF UNDEF; the ports belong to the links. The
parameters, the agenda and the last response are no state of the block (assumption 8). -/
def State.blockReset (s : State) : State :=
  { s with
    status := .reset
    addr := 0
    len := 0
    crc := 0xFFFFFFFF
    claim := 0
    dlen := 0
    ver := 0
    rxCnt := 0
    txCnt := 0
    buf := []
    job := none }

/-- A next state, or the fault that kept it from being. -/
def answer : Except Fault State → Answer
  | .ok s => .next s
  | .error f => .fault f

end Sys2Proof.Machine
end

