-- ==== Sys2Proof/Machine/Operands.lean ====
section
/-! DEFINITION. Operand forms: little-endian assembly and splitting (R10, R65), the range check (R105), and a host
access's data. -/

namespace Sys2Proof.Machine

/-- LE16(b0, b1) (R10). -/
def le16 (b0 b1 : Byte) : Half := b1 ++ b0

/-- LE32(b0, b1, b2, b3) (R10). -/
def le32 (b0 b1 b2 b3 : Byte) : Word := b3 ++ b2 ++ b1 ++ b0

/-- byte_k(v) (R10). -/
def byteOf (k : Nat) (v : Word) : Byte := v.extractLsb' (8 * k) 8

/-- le16(v), as the bytes that go onto the link (R10). -/
def le16Bytes (v : Half) : List Byte := [v.extractLsb' 0 8, v.extractLsb' 8 8]

/-- le32(v), as the bytes that go onto the link (R10). -/
def le32Bytes (v : Word) : List Byte := [byteOf 0 v, byteOf 1 v, byteOf 2 v, byteOf 3 v]

/-- zext_32(b) << (8 * k): byte b at place k of a word (R10, R163, R165). -/
def bytePlaced (b : Byte) (k : Nat) : Word := b.setWidth 32 <<< (8 * k)

/-- inrange(a, n): a + n <= BUF_BYTES on unbounded integers (R105). -/
def State.inRange (s : State) (a n : Nat) : Bool := a + n ≤ s.cfg.bufBytes

/-- The number of bytes of an access (R61). -/
def Size.bytes : Size → Nat
  | .byte => 1
  | .half => 2
  | .word => 4

/-- The size of an access's data (R61). -/
def Datum.size : Datum → Size
  | .byte _ => .byte
  | .half _ => .half
  | .word _ => .word

/-- The size of an access (R61). -/
def Transfer.size : Transfer → Size
  | .read n => n
  | .write d => d.size

/-- The bytes of a value, least significant first (R65 MemWrite). -/
def Datum.toBytes : Datum → List Byte
  | .byte v => [v]
  | .half v => le16Bytes v
  | .word v => le32Bytes v

/-- The value of n bytes, least significant first (R65 MemRead); a missing byte counts as 0, and none ever is. -/
def Datum.ofBytes (n : Size) (bs : List Byte) : Datum :=
  match n with
  | .byte => .byte (bs.getD 0 0)
  | .half => .half (le16 (bs.getD 0 0) (bs.getD 1 0))
  | .word => .word (le32 (bs.getD 0 0) (bs.getD 1 0) (bs.getD 2 0) (bs.getD 3 0))

/-- The word a word write carries; a legal register write is always one (R62). -/
def Datum.toWord : Datum → Word
  | .byte v => v.setWidth 32
  | .half v => v.setWidth 32
  | .word v => v

end Sys2Proof.Machine
end

