-- ==== Sys2Proof/Machine/Flags.lean ====
section
/-! DEFINITION. STATUS: its codes and layout (R22 to R26), and the two operations every command's flags go through,
accept (R102) and finish (R103). -/

namespace Sys2Proof.Machine

/-- CLASS codes (R22). -/
def ProbeClass.code : ProbeClass → BitVec 2
  | .none => 0
  | .detected => 1
  | .notDetected => 2

/-- RESULT codes (R23). -/
def Result.code : Result → BitVec 4
  | .ok => 0
  | .timedOut => 1
  | .closed => 2
  | .truncatedHeader => 3
  | .payloadTooLarge => 4
  | .range => 5
  | .illegal => 6

/-- The opcode of a multi-step command (R36, R84). -/
def JobOp.code : JobOp → Byte
  | .crcBuf => 0x03
  | .crcCalc => 0x04
  | .crcCheck => 0x05
  | .encode => 0x10
  | .probe => 0x20
  | .rxHdr => 0x21
  | .rxBody => 0x22
  | .rxRaw => 0x24

/-- The jobs that take RX bytes, the ones a DEADLINE ends (R113, R160). -/
def JobOp.isRx : JobOp → Bool
  | .probe | .rxHdr | .rxBody | .rxRaw => true
  | .crcBuf | .crcCalc | .crcCheck | .encode => false

/-- What a read of STATUS gives (R22): OP [23:16], MATCH [8], RESULT [7:4], CLASS [3:2], DONE [1], BUSY [0]. -/
def State.statusWord (s : State) : Word :=
  0#8 ++ s.status.op ++ 0#7 ++ BitVec.ofBool s.status.matched ++ s.status.result.code ++ s.status.cls.code ++
    BitVec.ofBool s.status.done ++ BitVec.ofBool s.busy

/-- accept(v), of v only bits [7:0] (R102). -/
def State.accept (s : State) (op : Byte) : State := { s with status := ⟨false, .none, .ok, false, op⟩ }

/-- finish(code) (R103). -/
def State.finish (s : State) (code : Result) : State :=
  { s with job := none, status := { s.status with done := true, result := code } }

/-- S.MATCH <- v (R129, R166). -/
def State.setMatch (s : State) (v : Bool) : State := { s with status := { s.status with matched := v } }

/-- S.CLASS <- c (R182, R183). -/
def State.setClass (s : State) (c : ProbeClass) : State := { s with status := { s.status with cls := c } }

/-- What R100 does with a CMD write of any word but DEADLINE: BusError while busy (R101); else the write completes OKAY,
the word is accepted (R102), and its start rule runs in the same step. -/
def State.whenIdle (s : State) (op : Byte) (rule : State → Answer) : Answer :=
  if s.busy then .next s.busError else rule ((s.respond .okay).accept op)

/-- The range check of a start rule: RANGE and nothing else, or the rest of the rule (R105, R107). -/
def State.checkRange (s : State) (a n : Nat) (rule : State → Answer) : Answer :=
  if s.inRange a n then rule s else .next (s.finish .range)

end Sys2Proof.Machine
end

