-- ==== Sys2Proof/Machine/Checksum.lean ====
section
/-! DEFINITION. The checksum arithmetic (R120 to R124) and the checksum commands' start rules (R125 to R129). -/

namespace Sys2Proof.Machine

/-- One reduction (R120). -/
def reduce1 (r : Word) : Word := if r.getLsbD 0 then (r >>> 1) ^^^ Config.crcPoly else r >>> 1

/-- Eight reductions (R120). -/
def reduce8 (r : Word) : Word :=
  reduce1 (reduce1 (reduce1 (reduce1 (reduce1 (reduce1 (reduce1 (reduce1 r)))))))

/-- The byte step: the byte enters bits [7:0] (R121). -/
def crcStep (r : Word) (b : Byte) : Word := reduce8 (r ^^^ b.setWidth 32)

/-- The byte step folded over a sequence, first byte first (R122). -/
def crcFold (r : Word) (bs : List Byte) : Word := bs.foldl crcStep r

/-- The checksum of a byte sequence (R122). -/
def checksum (bs : List Byte) : Word := ~~~ crcFold Config.crcInit bs

/-- CRCOUT: at every instant the complement of CRC (R30). -/
def State.crcOut (s : State) : Word := ~~~ s.crc

/-- R[CRC] <- crc_step(R[CRC], b) (R121, R126, R127, R143, R165). -/
def State.crcByte (s : State) (b : Byte) : State := { s with crc := crcStep s.crc b }

/-- R[CRC] <- 0xFFFFFFFF (R125, R128, R129, R143, R164). -/
def State.crcRestart (s : State) : State := { s with crc := Config.crcInit }

/-- CRC_INIT (R125). -/
def execCrcInit (s : State) : Answer :=
  s.whenIdle 0x01 fun s => .next (s.crcRestart.finish .ok)

/-- CRC_BYTE (R126): CRC goes on from whatever it holds. -/
def execCrcByte (imm : Byte) (s : State) : Answer :=
  s.whenIdle 0x02 fun s => .next ((s.crcByte imm).finish .ok)

/-- CRC_BUF's start rule (R127): CRC goes on from its value. -/
def execCrcBuf (s : State) : Answer :=
  s.whenIdle 0x03 fun s =>
    s.checkRange s.addr.toNat s.len.toNat fun s =>
      if s.len = 0 then .next (s.finish .ok)
      else .next (s.start { op := .crcBuf, a := s.addr, n := s.len })

/-- CRC_CALC's start rule (R128): CRC restarts, unless the range check fails. -/
def execCrcCalc (s : State) : Answer :=
  s.whenIdle 0x04 fun s =>
    s.checkRange s.addr.toNat s.len.toNat fun s =>
      let s := s.crcRestart
      if s.len = 0 then .next (s.finish .ok)
      else .next (s.start { op := .crcCalc, a := s.addr, n := s.len })

/-- S.MATCH <- (~R[CRC] = R[CLAIM]) (R129). -/
def State.matchClaim (s : State) : State := s.setMatch (s.crcOut == s.claim)

/-- CRC_CHECK's start rule (R129); with LEN = 0 the checksum compared is that of no byte, 0x00000000. -/
def execCrcCheck (s : State) : Answer :=
  s.whenIdle 0x05 fun s =>
    s.checkRange s.addr.toNat s.len.toNat fun s =>
      let s := s.crcRestart
      if s.len = 0 then .next (s.matchClaim.finish .ok)
      else .next (s.start { op := .crcCheck, a := s.addr, n := s.len })

/-- The engine step of CRC_BUF, CRC_CALC and CRC_CHECK (R127, R129): one byte of BUF into CRC. -/
def checksumStep (j : Job) (s : State) : Answer :=
  match s.bufRead (j.a.toNat + j.i.toNat) with
  | .error f => .fault f
  | .ok b =>
    let s := s.crcByte b
    if j.i + 1 = j.n then
      if j.op = .crcCheck then .next (s.matchClaim.finish .ok) else .next (s.finish .ok)
    else .next (s.start { j with i := j.i + 1 })

end Sys2Proof.Machine
end

