-- ==== Sys2Proof/Machine/Codec.lean ====
section
/-! DEFINITION. The packet codec: the wire formats (R140, R141), ENCODE (R143, R146) and DECLEN (R144). -/

namespace Sys2Proof.Machine

/-- frame(c, p): an outbound frame's bytes in the order they go onto the link (R140). -/
def frame (c : Byte) (p : List Byte) : List Byte :=
  le16Bytes (BitVec.ofNat 16 (1 + p.length)) ++ (c :: p) ++ le32Bytes (checksum (c :: p))

/-- response(t): an IdentityResponse's bytes (R141). -/
def response (t : List Byte) : List Byte :=
  le16Bytes (BitVec.ofNat 16 t.length) ++ t ++ le32Bytes (checksum t)

/-- ENCODE's start rule (R143): PAYLOAD_TOO_LARGE before RANGE (R107, R146). -/
def execEncode (cmd : Byte) (s : State) : Answer :=
  s.whenIdle 0x10 fun s =>
    if Config.maxPayload < s.len.toNat then .next (s.finish .payloadTooLarge)
    else s.checkRange s.addr.toNat s.len.toNat fun s =>
      .next (({ s with txCnt := 0 }.crcRestart).start { op := .encode, a := s.addr, n := s.len + 7, c := cmd })

/-- The byte ENCODE sends at place `k` of a frame with `p` payload bytes (R143). -/
def encodeByte (j : Job) (p k : Nat) (s : State) : Except Fault Byte :=
  if k = 0 then .ok (byteOf 0 (BitVec.ofNat 32 (p + 1)))
  else if k = 1 then .ok (byteOf 1 (BitVec.ofNat 32 (p + 1)))
  else if k = 2 then .ok j.c
  else if k < 3 + p then s.bufRead (j.a.toNat + (k - 3))
  else .ok (byteOf (k - 3 - p) s.crcOut)

/-- ENCODE's engine step, enabled only when TXREADY = 1 (R104, R143): one byte of the frame to the link. The command and
payload bytes also enter CRC. -/
def encodeStep (j : Job) (s : State) : Answer :=
  if s.txReady then
    let p := j.n.toNat - 7
    let k := j.i.toNat
    match encodeByte j p k s with
    | .error f => .fault f
    | .ok b =>
      let s := (if 2 ≤ k ∧ k < 3 + p then s.crcByte b else s).txPut b
      if j.i + 1 = j.n then .next (s.finish .ok) else .next (s.start { j with i := j.i + 1 })
  else .next s

/-- DECLEN (R144): TRUNCATED_HEADER before RANGE (R107); only the first two bytes are read. -/
def execDeclen (s : State) : Answer :=
  s.whenIdle 0x11 fun s =>
    if s.len.toNat < 2 then .next (s.finish .truncatedHeader)
    else s.checkRange s.addr.toNat s.len.toNat fun s =>
      match s.bufRead s.addr.toNat with
      | .error f => .fault f
      | .ok b0 =>
        match s.bufRead (s.addr.toNat + 1) with
        | .error f => .fault f
        | .ok b1 => .next ({ s with dlen := le16 b0 b1 }.finish .ok)

end Sys2Proof.Machine
end

