-- ==== Sys2Proof/Machine/Receive.lean ====
section
/-! DEFINITION. The length-delimited receiver: the start rules of RXRAW, RXHDR, RXBODY and RXFLUSH (R162 to R167), the
byte, completion, close and timeout rules of every RX command (PROBE's R181 to R183 among them), and the RX engine step
they share (R160, R161). -/

namespace Sys2Proof.Machine

/-- R[RXCNT] <- 0 (R35). -/
def State.rxRestart (s : State) : State := { s with rxCnt := 0 }

/-- RXRAW's start rule (R162). -/
def execRxRaw (s : State) : Answer :=
  s.whenIdle 0x24 fun s =>
    s.checkRange s.addr.toNat s.len.toNat fun s =>
      let s := s.rxRestart
      if s.len = 0 then .next (s.finish .ok)
      else .next (s.start { op := .rxRaw, a := s.addr, n := s.len })

/-- RXHDR's start rule (R163). -/
def execRxHdr (s : State) : Answer :=
  s.whenIdle 0x21 fun s => .next (s.rxRestart.start { op := .rxHdr, n := 2 })

/-- RXBODY's start rule (R164): the length is DLEN's. -/
def execRxBody (s : State) : Answer :=
  s.whenIdle 0x22 fun s =>
    s.checkRange s.addr.toNat s.dlen.toNat fun s =>
      .next (s.rxRestart.crcRestart.start { op := .rxBody, a := s.addr, n := s.dlen.setWidth 32 + 4 })

/-- RXFLUSH (R167): the bytes now waiting are dropped and counted. -/
def execRxFlush (s : State) : Answer :=
  s.whenIdle 0x23 fun s =>
    .next ({ s with rxCnt := BitVec.ofNat 32 s.rxq.length, rxq := [] }.finish .ok)

/-- The number of text bytes of an RXBODY job, L = J.n - 4 (R165). -/
def Job.textLen (j : Job) : Nat := j.n.toNat - 4

/-- PROBE's byte rule (R181). -/
def probeByte (j : Job) (b : Byte) (s : State) : Except Fault (Job × State) :=
  match s.bufWrite (j.a.toNat + j.i.toNat) b with
  | .error f => .error f
  | .ok s => .ok (j, s)

/-- RXRAW's byte rule (R162). -/
def rxRawByte (j : Job) (b : Byte) (s : State) : Except Fault (Job × State) :=
  match s.bufWrite (j.a.toNat + j.i.toNat) b with
  | .error f => .error f
  | .ok s => .ok (j, s)

/-- RXHDR's byte rule (R163). -/
def rxHdrByte (j : Job) (b : Byte) (s : State) : Except Fault (Job × State) :=
  .ok ({ j with acc := j.acc ||| bytePlaced b j.i.toNat }, s)

/-- RXBODY's byte rule (R165): text to BUF and CRC, then the claimed checksum to the assembly register. -/
def rxBodyByte (j : Job) (b : Byte) (s : State) : Except Fault (Job × State) :=
  if j.i.toNat < j.textLen then
    match s.bufWrite (j.a.toNat + j.i.toNat) b with
    | .error f => .error f
    | .ok s => .ok (j, s.crcByte b)
  else .ok ({ j with acc := j.acc ||| bytePlaced b (j.i.toNat - j.textLen) }, s)

/-- The byte rule of the busy command (R160). -/
def rxByteRule (j : Job) (b : Byte) (s : State) : Except Fault (Job × State) :=
  match j.op with
  | .probe => probeByte j b s
  | .rxHdr => rxHdrByte j b s
  | .rxBody => rxBodyByte j b s
  | .rxRaw => rxRawByte j b s
  | .crcBuf | .crcCalc | .crcCheck | .encode => .ok (j, s)

/-- Does a header begin with the magic constant (R182)? Only bytes 0 to 3 are compared. -/
def headerMatches (h : List Byte) : Bool := h.take 4 == Config.magicBytes

/-- The version pair of a header: bytes 4 and 5 (R182). -/
def headerVersion (h : List Byte) : Half := le16 (h.getD 4 0) (h.getD 5 0)

/-- PROBE's completion rule (R182), over the eight bytes just stored. -/
def probeComplete (j : Job) (s : State) : Answer :=
  match s.readSlice j.a.toNat Config.headerBytes with
  | .error f => .fault f
  | .ok h =>
    if headerMatches h then .next (({ s with ver := headerVersion h }.setClass .detected).finish .ok)
    else .next ((s.setClass .notDetected).finish .ok)

/-- RXHDR's completion rule (R163). -/
def rxHdrComplete (j : Job) (s : State) : Answer :=
  .next ({ s with dlen := j.acc.setWidth 16 }.finish .ok)

/-- RXBODY's completion rule (R166). -/
def rxBodyComplete (j : Job) (s : State) : Answer :=
  .next (({ s with claim := j.acc }.setMatch (s.crcOut == j.acc)).finish .ok)

/-- The completion rule of the busy command (R160). -/
def rxComplete (j : Job) (s : State) : Answer :=
  match j.op with
  | .probe => probeComplete j s
  | .rxHdr => rxHdrComplete j s
  | .rxBody => rxBodyComplete j s
  | .rxRaw => .next (s.finish .ok)
  | .crcBuf | .crcCalc | .crcCheck | .encode => .next (s.finish .ok)

/-- The close rules (R162, R163, R166, R183): PROBE also classifies. -/
def rxClose (j : Job) (s : State) : State :=
  match j.op with
  | .probe => (s.setClass .notDetected).finish .closed
  | _ => s.finish .closed

/-- The timeout rules (R162, R163, R166, R183): PROBE also classifies. -/
def rxTimeout (j : Job) (s : State) : State :=
  match j.op with
  | .probe => (s.setClass .notDetected).finish .timedOut
  | _ => s.finish .timedOut

/-- The RX engine step (R160): at most one byte is taken; on EMPTY there is no step, and nothing changes. -/
def rxStep (j : Job) (s : State) : Answer :=
  match s.rxHead with
  | .empty => .next s
  | .eos => .next (rxClose j s)
  | .byte b =>
    match rxByteRule j b s.rxTake with
    | .error f => .fault f
    | .ok (j, s) =>
      let j := { j with i := j.i + 1 }
      if j.i = j.n then rxComplete j s else .next (s.start j)

end Sys2Proof.Machine
end

