-- ==== Sys2Proof/Machine/Control.lean ====
section
/-! DEFINITION. The control commands NOP (R110) and DEADLINE (R113, R114), and an illegal word's effect (R111). -/

namespace Sys2Proof.Machine

/-- NOP (R110). -/
def execNop (s : State) : Answer :=
  s.whenIdle 0x00 fun s => .next (s.finish .ok)

/-- DEADLINE: completes OKAY always; ends a busy RX command by its timeout rule (R113), and changes nothing of any other
job (R113) or while idle (R114). -/
def execDeadline (s : State) : Answer :=
  let s := s.respond .okay
  match s.job with
  | none => .next s
  | some j => if j.op.isRx then .next (rxTimeout j s) else .next s

/-- An illegal word written to CMD (R100, R101, R111): STATUS.OP keeps its bits [7:0]. -/
def illegalWord (w : Word) (s : State) : Answer :=
  s.whenIdle (w.extractLsb' 0 8) fun s => .next (s.finish .illegal)

end Sys2Proof.Machine
end

