-- ==== Sys2Proof/Machine/Probe.lean ====
section
/-! DEFINITION. PROBE's start rule (R180). Its byte, completion, close and timeout rules stand in Receive.lean, beside the
RX engine step that runs them. -/

namespace Sys2Proof.Machine

/-- PROBE's start rule (R180): on RANGE, VER and RXCNT are not changed and CLASS stays NONE. -/
def execProbe (s : State) : Answer :=
  s.whenIdle 0x20 fun s =>
    s.checkRange s.addr.toNat Config.headerBytes fun s =>
      .next ({ s with ver := 0 }.rxRestart.start
        { op := .probe, a := s.addr, n := BitVec.ofNat 32 Config.headerBytes })

end Sys2Proof.Machine
end

