-- ==== Sys2Proof/Machine/Dispatch.lean ====
section
/-! DEFINITION. The command decoder's last stage: which start rule a decoded command runs (R100). -/

namespace Sys2Proof.Machine

/-- The host writes the command's word to CMD (R100). -/
def exec (i : Instr) (s : State) : Host.Outcome State Fault Refusal :=
  match i with
  | .nop => Sys2Proof.Machine.execNop s
  | .crcInit => Sys2Proof.Machine.execCrcInit s
  | .crcByte imm => Sys2Proof.Machine.execCrcByte imm s
  | .crcBuf => Sys2Proof.Machine.execCrcBuf s
  | .crcCalc => Sys2Proof.Machine.execCrcCalc s
  | .crcCheck => Sys2Proof.Machine.execCrcCheck s
  | .encode cmd => Sys2Proof.Machine.execEncode cmd s
  | .declen => Sys2Proof.Machine.execDeclen s
  | .probe => Sys2Proof.Machine.execProbe s
  | .rxHdr => Sys2Proof.Machine.execRxHdr s
  | .rxBody => Sys2Proof.Machine.execRxBody s
  | .rxFlush => Sys2Proof.Machine.execRxFlush s
  | .rxRaw => Sys2Proof.Machine.execRxRaw s
  | .deadline => Sys2Proof.Machine.execDeadline s

end Sys2Proof.Machine
end

