-- ==== Sys2Proof/Machine/Bus.lean ====
section
/-! DEFINITION. The host's side: the address map (R20, R60, R62, R63, R65), reads and writes of registers and of BUF
(R64 to R67), and a word presented at CMD (R100). Legality of the access comes first, then the busy restrictions, then the
decoder (R207). -/

namespace Sys2Proof.Machine

/-- The register at a word-aligned offset (R20). -/
def regAt (off : Nat) : Option Reg :=
  match off with
  | 0x00 => some .cmd
  | 0x04 => some .status
  | 0x08 => some .addr
  | 0x0C => some .len
  | 0x10 => some .crc
  | 0x14 => some .crcOut
  | 0x18 => some .claim
  | 0x1C => some .dlen
  | 0x20 => some .ver
  | 0x24 => some .rxCnt
  | 0x28 => some .txCnt
  | 0x2C => some .magic
  | _ => none

/-- Where an access of `n` bytes at `off` lands; none when it is not legal (R62, R63, R65). -/
def place (c : Config) (off : Nat) (n : Size) : Option Place :=
  if off < Config.regionEnd then
    if n = .word then (regAt off).map Place.reg else none
  else if Config.bufWindow ≤ off ∧ off + n.bytes ≤ Config.bufWindow + c.bufBytes ∧ off % n.bytes = 0 then
    some (.buf (off - Config.bufWindow))
  else none

/-- What a legal word read of a register returns (R64, and R21 to R37). -/
def State.readReg (s : State) : Reg → Word
  | .cmd => 0
  | .status => s.statusWord
  | .addr => s.addr
  | .len => s.len
  | .crc => s.crc
  | .crcOut => s.crcOut
  | .claim => s.claim
  | .dlen => s.dlen.setWidth 32
  | .ver => s.ver.setWidth 32
  | .rxCnt => s.rxCnt
  | .txCnt => s.txCnt
  | .magic => Config.magicWord

/-- A word presented at CMD (R100): a legal one runs its command, any other is an illegal word. -/
def presentWord (w : Word) (s : State) : Answer :=
  match decode w with
  | .ok i => exec i s
  | .error _ => illegalWord w s

/-- A write of ADDR, LEN, CRC or CLAIM: refused while busy (R67). -/
def State.writeIdle (s : State) (t : State) : State := if s.busy then s.busError else t.respond .okay

/-- A legal word write to a register (R64, R67). -/
def writeReg (r : Reg) (v : Word) (s : State) : Answer :=
  match r with
  | .cmd => presentWord v s
  | .addr => .next (s.writeIdle { s with addr := v })
  | .len => .next (s.writeIdle { s with len := v })
  | .crc => .next (s.writeIdle { s with crc := v })
  | .claim => .next (s.writeIdle { s with claim := v })
  | .status | .crcOut | .dlen | .ver | .rxCnt | .txCnt | .magic => .next (s.respond .okay)

/-- A legal access in the BUF window (R65, R66): refused while busy (R67). -/
def bufAccess (a : Nat) (t : Transfer) (s : State) : Answer :=
  if s.busy then .next s.busError
  else match t with
    | .read n =>
      match s.readSlice a n.bytes with
      | .error f => .fault f
      | .ok bs => .next (s.respond (.data (.ofBytes n bs)))
    | .write d =>
      match s.writeSlice a d.toBytes with
      | .error f => .fault f
      | .ok s => .next (s.respond .okay)

/-- A host access at a block offset (R61, R207). -/
def hostAccess (off : Word) (t : Transfer) (s : State) : Answer :=
  match place s.cfg off.toNat t.size with
  | none => .next s.busError
  | some (.buf a) => bufAccess a t s
  | some (.reg r) =>
    match t with
    | .read _ => .next (s.respond (.data (.word (s.readReg r))))
    | .write d => writeReg r d.toWord s

/-- A host access at an address of the host's own space (R60): BASE + off is offset off of the block's 2^32 offsets; an
address that is no offset of the block is not its access, and it neither answers nor changes (assumption 2). -/
def hostAccessAt (addr : Nat) (t : Transfer) (s : State) : Answer :=
  if s.cfg.base ≤ addr ∧ addr < s.cfg.base + 2 ^ 32 then
    hostAccess (BitVec.ofNat 32 (addr - s.cfg.base)) t s
  else .next s

end Sys2Proof.Machine
end

