-- ==== Sys2Proof/Machine/Engine.lean ====
section
/-! DEFINITION. The engine: one byte of the busy command per step (R104). -/

namespace Sys2Proof.Machine

/-- The engine's step (R104). Where it has none (no job, an RX command facing EMPTY, ENCODE facing TXREADY = 0) the machine
waits and nothing changes (assumption 4). -/
def engineStep (s : State) : Answer :=
  match s.job with
  | none => .next s
  | some j =>
    match j.op with
    | .crcBuf | .crcCalc | .crcCheck => checksumStep j s
    | .encode => encodeStep j s
    | .probe | .rxHdr | .rxBody | .rxRaw => rxStep j s

end Sys2Proof.Machine
end

