-- ==== Sys2Proof/Machine/Agents.lean ====
section
/-! DEFINITION. One step of the machine: the next agent of the agenda acts, and with the agenda empty the engine does
(R7, R104, R216, R218; assumptions 3 and 4). -/

namespace Sys2Proof.Machine

/-- One agent's step (R104, R216, R218, R230). -/
def handle (e : Event) (s : State) : Answer :=
  match e with
  | .host off t => hostAccess off t s
  | .hostAt addr t => hostAccessAt addr t s
  | .engine => engineStep s
  | .rxByte b => .next (s.linkAppend b)
  | .rxEnd => .next s.linkEnd
  | .txReady v => .next (s.linkReady v)
  | .reset => .next s.blockReset

/-- The next agent's step. -/
def nextAgent (s : State) : Answer :=
  match s.agenda with
  | [] => engineStep s
  | e :: rest => handle e { s with agenda := rest }

end Sys2Proof.Machine
end

