-- ==== Sys2Proof/Machine/Step.lean ====
section
/-! DEFINITION. The step, and how a command is placed to be the next thing it runs. -/

namespace Sys2Proof.Machine

/-- One step of the machine. -/
def step (s : State) : Host.Outcome State Fault Refusal := nextAgent s

/-- The state whose next step is the host writing the word to CMD (R100; assumption 14). -/
def State.withFetchWord (s : State) (nbits w : Nat) : State :=
  { s with agenda := .host 0x00 (.write (.word (tableWord nbits w))) :: s.agenda }

end Sys2Proof.Machine
end

