-- ==== Sys2Proof/Safety.lean ====
section
/-! DEFINITION. What a good state is: the invariant every step keeps, in the terms the claims use, and the vocabulary of
the claims about a command's progress. -/

namespace Sys2Proof.Machine

/-- The host event that writes the word `w` to CMD. -/
def cmdWrite (w : Word) : Event := .host 0x00 (.write (.word w))

/-- The next step is the engine's: its turn comes first, or the agenda is empty (R104). -/
def EngineNext (s : State) : Prop := s.agenda = [] ∨ ∃ rest, s.agenda = .engine :: rest

/-- The next step is the host's write of the word `w` to CMD, by its offset or by its address (R60, R100). -/
def CmdNext (w : Word) (s : State) : Prop :=
  ∃ rest, s.agenda = cmdWrite w :: rest ∨ s.agenda = .hostAt s.cfg.base (.write (.word w)) :: rest

/-- The bytes the RX link appends to RXQ in the next step: one where its append comes first and RXEOS = 0, else none
(R40, R41). -/
def State.delivered (s : State) : List Byte :=
  match s.agenda with
  | .rxByte b :: _ => if s.rxEos then [] else [b]
  | _ => []

/-- The word whose bytes, least significant first, are `bs` (R10). -/
def leWord (bs : List Byte) : Word := bs.foldr (fun b v => v <<< 8 ||| b.setWidth 32) 0

/-- STATUS of an accepted command still running (R102): DONE, RESULT, CLASS and MATCH are 0. -/
def busyStatus (op : Byte) : Status := ⟨false, .none, .ok, false, op⟩

/-- STATUS of a command finished with `r`, CLASS NONE and MATCH 0 (R102, R103). -/
def doneStatus (op : Byte) (r : Result) : Status := ⟨true, .none, r, false, op⟩

/-- The offsets of the read-only registers: STATUS, CRCOUT, DLEN, VER, RXCNT, TXCNT, MAGIC (R20, R64). -/
def readOnlyOffsets : List Word := [0x04, 0x14, 0x1C, 0x20, 0x24, 0x28, 0x2C]

/-- Each register's offset and what a word read there gives (R20, R21, R30, R33, R34, R37, R64). -/
def State.wordReads (s : State) : List (Word × Word) :=
  [(0x00, 0), (0x04, s.statusWord), (0x08, s.addr), (0x0C, s.len), (0x10, s.crc), (0x14, s.crc ^^^ 0xFFFFFFFF),
   (0x18, s.claim), (0x1C, 0#16 ++ s.dlen), (0x20, 0#16 ++ s.ver), (0x24, s.rxCnt), (0x28, s.txCnt), (0x2C, 0x00490050)]

/-- The bytes of BUF a busy RX command has filled so far, from J.a up (R162, R165, R181). -/
def Job.stored (j : Job) : Nat :=
  match j.op with
  | .probe | .rxRaw => j.i.toNat
  | .rxBody => min j.i.toNat j.textLen
  | .rxHdr | .crcBuf | .crcCalc | .crcCheck | .encode => 0

/-- J.n is the count of R106's table, and the bytes of BUF the job uses lie inside it (R105). -/
def Job.fits (j : Job) (s : State) : Prop :=
  match j.op with
  | .crcBuf | .crcCalc | .crcCheck | .rxRaw => j.a.toNat + j.n.toNat ≤ s.cfg.bufBytes
  | .encode => 7 ≤ j.n.toNat ∧ j.n.toNat ≤ Config.maxPayload + 7 ∧ j.a.toNat + (j.n.toNat - 7) ≤ s.cfg.bufBytes
  | .probe => j.n = 8 ∧ j.a.toNat + 8 ≤ s.cfg.bufBytes
  | .rxHdr => j.n = 2
  | .rxBody => j.n = s.dlen.setWidth 32 + 4 ∧ j.a.toNat + s.dlen.toNat ≤ s.cfg.bufBytes

/-- A busy machine: STATUS shows a command running (R22, R102), J.i < J.n (R36), the job lies inside BUF (R105), RXCNT or
TXCNT counts its bytes (R35, R204), the bytes it has stored are defined (R31), and RXHDR's assembly register holds no
more than the bytes taken (R163). -/
structure JobOk (s : State) (j : Job) : Prop where
  status : s.status = busyStatus j.op.code
  progress : j.i.toNat < j.n.toNat
  fits : j.fits s
  rxCounted : j.op.isRx = true → s.rxCnt = j.i
  txCounted : j.op = .encode → s.txCnt = j.i
  defined : ∀ k, k < j.stored → (s.buf.read (j.a.toNat + k)).isSome = true
  assembled : j.op = .rxHdr → j.acc.toNat < 2 ^ (8 * j.i.toNat)

/-- The results a finished command may report, by STATUS.OP (R201); OK is reported by every command but DEADLINE, which is
never accepted, and ILLEGAL for any illegal word. -/
def mayReport (op : Byte) : Result → Bool
  | .ok => op ∈ [0x00#8, 0x01#8, 0x02#8, 0x03#8, 0x04#8, 0x05#8, 0x10#8, 0x11#8, 0x20#8, 0x21#8, 0x22#8, 0x23#8, 0x24#8]
  | .timedOut => op ∈ [0x20#8, 0x21#8, 0x22#8, 0x24#8]
  | .closed => op ∈ [0x20#8, 0x21#8, 0x22#8, 0x24#8]
  | .truncatedHeader => op == 0x11#8
  | .payloadTooLarge => op == 0x10#8
  | .range => op ∈ [0x03#8, 0x04#8, 0x05#8, 0x10#8, 0x11#8, 0x20#8, 0x22#8, 0x24#8]
  | .illegal => true

/-- An idle machine's STATUS: as reset leaves it, or one finished command's (R22 to R26, R201, R184). -/
structure StatusOk (st : Status) : Prop where
  /-- nothing finished since reset: STATUS is 0 (R230) -/
  fresh : st.done = false → st = Status.reset
  /-- only the commands R201 lists raise a RESULT -/
  raised : st.done = true → mayReport st.op st.result = true
  /-- CLASS is NONE exactly when no probe ran to an end other than RANGE (R24) -/
  classed : st.done = true → (st.cls ≠ .none ↔ st.op = 0x20 ∧ st.result ≠ .range ∧ st.result ≠ .illegal)
  /-- DETECTED comes only with all eight bytes (R182, R183) -/
  detected : st.cls = .detected → st.result = .ok
  /-- MATCH is set only by a CRC_CHECK or an RXBODY that finishes OK (R25) -/
  matchedBy : st.matched = true → (st.op = 0x05 ∨ st.op = 0x22) ∧ st.result = .ok

/-- The invariant of CK32-PKT. -/
structure Inv (s : State) : Prop where
  /-- the buffer's memory keeps its canonical form -/
  canonical : s.buf.wf
  /-- BUF has BUF_BYTES bytes (R31) -/
  bounded : s.buf.within s.cfg.bufBytes
  busyOk : ∀ j, s.job = some j → JobOk s j
  idleOk : s.job = none → StatusOk s.status

/-- A checksum job in progress: the bytes `bs` in BUF from J.a, of which J.i are already in CRC, which started at `c0`
(R127 to R129). -/
structure ChecksumAt (op : JobOp) (c0 : Word) (bs : List Byte) (s : State) (j : Job) : Prop where
  job : s.job = some j
  opIs : j.op = op
  total : j.n.toNat = bs.length
  progress : j.i.toNat < j.n.toNat
  source : s.readSlice j.a.toNat bs.length = .ok bs
  folded : s.crc = crcFold c0 (bs.take j.i.toNat)
  status : s.status = busyStatus op.code

/-- An ENCODE in progress: of the frame of `c` and the payload `p` in BUF from J.a, J.i bytes follow `sent` in TXOUT, and
CRC holds the checksum register over the content bytes among them (R143). -/
structure EncodeAt (c : Byte) (p sent : List Byte) (s : State) (j : Job) : Prop where
  job : s.job = some j
  opIs : j.op = .encode
  cmd : j.c = c
  total : j.n.toNat = p.length + 7
  short : p.length ≤ Config.maxPayload
  progress : j.i.toNat < j.n.toNat
  source : s.readSlice j.a.toNat p.length = .ok p
  sentSoFar : s.txOut = sent ++ (frame c p).take j.i.toNat
  counted : s.txCnt = j.i
  folded : s.crc = crcFold Config.crcInit ((c :: p).take (j.i.toNat - 2))
  status : s.status = busyStatus 0x10

/-- An RXRAW or a PROBE in progress at buffer base `a` for `n` bytes: of `stream`, the bytes the link has delivered for it
so far, J.i are in BUF and the rest wait in RXQ (R160, R162, R181). -/
structure FillAt (op : JobOp) (a n : Nat) (stream : List Byte) (s : State) (j : Job) : Prop where
  job : s.job = some j
  opIs : j.op = op
  base : j.a.toNat = a
  total : j.n.toNat = n
  progress : j.i.toNat < j.n.toNat
  taken : j.i.toNat ≤ stream.length
  inside : a + n ≤ s.cfg.bufBytes
  stored : s.readSlice a j.i.toNat = .ok (stream.take j.i.toNat)
  waiting : s.rxq = stream.drop j.i.toNat
  counted : s.rxCnt = j.i
  status : s.status = busyStatus op.code

/-- An RXHDR in progress: of `stream`, J.i bytes are in the assembly register and the rest wait in RXQ (R160, R163). -/
structure HeaderAt (stream : List Byte) (s : State) (j : Job) : Prop where
  job : s.job = some j
  opIs : j.op = .rxHdr
  total : j.n = 2
  progress : j.i.toNat < j.n.toNat
  taken : j.i.toNat ≤ stream.length
  assembled : j.acc = leWord (stream.take j.i.toNat)
  waiting : s.rxq = stream.drop j.i.toNat
  counted : s.rxCnt = j.i
  status : s.status = busyStatus 0x21

/-- An RXBODY in progress at buffer base `a` for `l` text bytes: of `stream`, J.i bytes are taken, the text bytes among them
in BUF and folded into CRC, the checksum bytes in the assembly register, and the rest wait in RXQ (R160, R164, R165). -/
structure BodyAt (a l : Nat) (stream : List Byte) (s : State) (j : Job) : Prop where
  job : s.job = some j
  opIs : j.op = .rxBody
  base : j.a.toNat = a
  total : j.n.toNat = l + 4
  progress : j.i.toNat < j.n.toNat
  taken : j.i.toNat ≤ stream.length
  inside : a + l ≤ s.cfg.bufBytes
  stored : s.readSlice a (min j.i.toNat l) = .ok (stream.take (min j.i.toNat l))
  folded : s.crc = crcFold Config.crcInit (stream.take (min j.i.toNat l))
  assembled : j.acc = leWord ((stream.take j.i.toNat).drop l)
  waiting : s.rxq = stream.drop j.i.toNat
  counted : s.rxCnt = j.i
  status : s.status = busyStatus 0x22

end Sys2Proof.Machine
end

