-- ==== Sys2Proof/Certificates/Slice0/Obligations.lean ====
section
/-! DEFINITION. The statements about CK32-PKT. Each docstring names the rules of the spec it formalises. A statement that
gives `= .next { s with … }` gives the whole next state: every field not named in it is unchanged, BUF byte for byte. -/

open Sys2Proof Sys2Proof.Machine

/-! ## Encoding (30_encoding.md) -/

/-- R80, R82, R84: every command is well formed, and a word decodes to a command exactly when it is that command's word,
with every operand value. -/
def Obligations.DecodeAndEncodeAgree : Prop :=
  ∀ i : Instr, i.wellFormed = true ∧ ∀ w : Word, decode w = .ok i ↔ w = encode i

/-- R84: a word w selects the row when (w & mask) = match, and no word selects two rows. -/
def Obligations.DecoderSelectsTheOpcodeMapRow : Prop :=
  (∀ w : Word,
    (decode w = .ok .nop ↔ w &&& 0xFFFFFFFF#32 = 0x00000000#32) ∧
    (decode w = .ok .crcInit ↔ w &&& 0xFFFFFFFF#32 = 0x00000001#32) ∧
    (∀ b : Byte, decode w = .ok (.crcByte b) ↔ w &&& 0xFFFF00FF#32 = 0x00000002#32 ∧ b = w.extractLsb' 8 8) ∧
    (decode w = .ok .crcBuf ↔ w &&& 0xFFFFFFFF#32 = 0x00000003#32) ∧
    (decode w = .ok .crcCalc ↔ w &&& 0xFFFFFFFF#32 = 0x00000004#32) ∧
    (decode w = .ok .crcCheck ↔ w &&& 0xFFFFFFFF#32 = 0x00000005#32) ∧
    (∀ c : Byte, decode w = .ok (.encode c) ↔ w &&& 0xFFFF00FF#32 = 0x00000010#32 ∧ c = w.extractLsb' 8 8) ∧
    (decode w = .ok .declen ↔ w &&& 0xFFFFFFFF#32 = 0x00000011#32) ∧
    (decode w = .ok .probe ↔ w &&& 0xFFFFFFFF#32 = 0x00000020#32) ∧
    (decode w = .ok .rxHdr ↔ w &&& 0xFFFFFFFF#32 = 0x00000021#32) ∧
    (decode w = .ok .rxBody ↔ w &&& 0xFFFFFFFF#32 = 0x00000022#32) ∧
    (decode w = .ok .rxFlush ↔ w &&& 0xFFFFFFFF#32 = 0x00000023#32) ∧
    (decode w = .ok .rxRaw ↔ w &&& 0xFFFFFFFF#32 = 0x00000024#32) ∧
    (decode w = .ok .deadline ↔ w &&& 0xFFFFFFFF#32 = 0x000000FF#32)) ∧
  List.Pairwise (fun p q : Word × Word => ∀ w : Word, ¬ (w &&& p.2 = p.1 ∧ w &&& q.2 = q.1))
    [(0x00000000, 0xFFFFFFFF), (0x00000001, 0xFFFFFFFF), (0x00000002, 0xFFFF00FF), (0x00000003, 0xFFFFFFFF),
     (0x00000004, 0xFFFFFFFF), (0x00000005, 0xFFFFFFFF), (0x00000010, 0xFFFF00FF), (0x00000011, 0xFFFFFFFF),
     (0x00000020, 0xFFFFFFFF), (0x00000021, 0xFFFFFFFF), (0x00000022, 0xFFFFFFFF), (0x00000023, 0xFFFFFFFF),
     (0x00000024, 0xFFFFFFFF), (0x000000FF, 0xFFFFFFFF)]

/-- R85, R111: the illegal words are exactly those with RSV /= 0, an OP not in the map, or a C0 word with IMM8 /= 0. One
written while idle finishes with RESULT = ILLEGAL and OP = word[7:0]; while busy it raises BusError; no other effect. -/
def Obligations.IllegalWordsFinishIllegal : Prop :=
  ∀ w : Word,
    ((∃ e, decode w = .error e) ↔
      w.extractLsb' 16 16 ≠ 0#16 ∨
      (0x06 ≤ (w.extractLsb' 0 8).toNat ∧ (w.extractLsb' 0 8).toNat ≤ 0x0F) ∨
      (0x12 ≤ (w.extractLsb' 0 8).toNat ∧ (w.extractLsb' 0 8).toNat ≤ 0x1F) ∨
      (0x25 ≤ (w.extractLsb' 0 8).toNat ∧ (w.extractLsb' 0 8).toNat ≤ 0xFE) ∨
      (w.extractLsb' 0 8 ≠ 0x02#8 ∧ w.extractLsb' 0 8 ≠ 0x10#8 ∧ w.extractLsb' 8 8 ≠ 0#8)) ∧
    (∀ (e : Reject) (s : State) (rest : List Event), decode w = .error e → s.agenda = cmdWrite w :: rest →
      step s = .next (if s.job = none
        then { s with agenda := rest, resp := some .okay, status := doneStatus (w.extractLsb' 0 8) .illegal }
        else { s with agenda := rest, resp := some .busError }))

/-- R84, R88: words written out from the spec's encodings. -/
def Obligations.WordsOfTheSpecDecode : Prop :=
  decode 0x00000000 = .ok .nop ∧ decode 0x00004102 = .ok (.crcByte 0x41) ∧ decode 0x00000005 = .ok .crcCheck ∧
  decode 0x00005310 = .ok (.encode 0x53) ∧ decode 0x00000011 = .ok .declen ∧ decode 0x00000020 = .ok .probe ∧
  decode 0x00000022 = .ok .rxBody ∧ decode 0x000000FF = .ok .deadline ∧
  decode 0x00000006 = .error (.unknownOpcode 0x06) ∧ decode 0x00000100 = .error .immediateNotZero ∧
  decode 0x00010000 = .error .reservedBits

/-! ## The step (30_encoding.md, 40_control.md) -/

/-- R84, R100: when the host writes a command's word to CMD, the step is that command's `exec`, on the state with that
host access taken from the agenda. -/
def Obligations.StepRunsTheDecodedCommand : Prop :=
  ∀ (s : State) (w : Word) (i : Instr) (rest : List Event),
    s.agenda = cmdWrite w :: rest → decode w = .ok i → i.wellFormed = true →
      step s = exec i { s with agenda := rest }

/-- R60: a host access at BASE + off is an access at offset off; an address outside the block's 2^32 offsets is none of
its accesses (that it changes nothing is the model's choice, assumption 2). -/
def Obligations.BaseAddressSelectsTheOffset : Prop :=
  (∀ (s : State) (off : Word) (tr : Transfer) (rest : List Event),
    s.agenda = .hostAt (s.cfg.base + off.toNat) tr :: rest →
      step s = step { s with agenda := .host off tr :: rest }) ∧
  (∀ (s : State) (addr : Nat) (tr : Transfer) (rest : List Event),
    s.agenda = .hostAt addr tr :: rest → addr < s.cfg.base ∨ s.cfg.base + 2 ^ 32 ≤ addr →
      step s = .next { s with agenda := rest })

/-- R101: while busy, a CMD write of any word other than 0x000000FF raises BusError and changes nothing. -/
def Obligations.BusyRefusesEveryWordButDeadline : Prop :=
  ∀ (s : State) (j : Job) (w : Word) (rest : List Event),
    s.job = some j → w ≠ 0x000000FF → s.agenda = cmdWrite w :: rest →
      step s = .next { s with agenda := rest, resp := some .busError }

/-- R102, R103, R26: after an accepted word STATUS.OP is the word's bits [7:0], CLASS is NONE and DONE = 1 exactly when no
job was started; the write completes OKAY and the agenda only loses this access. -/
def Obligations.AcceptanceDescribesTheNewCommand : Prop :=
  ∀ (s t : State) (w : Word) (rest : List Event),
    s.job = none → w ≠ 0x000000FF → s.agenda = cmdWrite w :: rest → step s = .next t →
      t.status.op = w.extractLsb' 0 8 ∧ t.status.cls = .none ∧ (t.status.done = true ↔ t.job = none) ∧
      (t.job ≠ none → t.status = busyStatus (w.extractLsb' 0 8)) ∧ t.resp = some .okay ∧ t.agenda = rest

/-- R106: which commands, and that every illegal word, finish in their start rule and which start a job, and the job's
byte count. -/
def Obligations.StartTableOfR106 : Prop :=
  (∀ (i : Instr) (s t : State), s.job = none → exec i s = .next t →
    match i with
    | .nop | .crcInit | .crcByte _ | .declen | .rxFlush | .deadline => t.job = none
    | .crcBuf | .crcCalc | .crcCheck | .rxRaw =>
      (t.job = none ↔ t.status.result = .range ∨ s.len = 0) ∧ ∀ j, t.job = some j → j.n = s.len ∧ j.i = 0
    | .encode _ =>
      (t.job = none ↔ t.status.result = .payloadTooLarge ∨ t.status.result = .range) ∧
      ∀ j, t.job = some j → j.n = s.len + 7 ∧ j.i = 0
    | .rxHdr => ∃ j, t.job = some j ∧ j.n = 2 ∧ j.i = 0
    | .rxBody => (t.job = none ↔ t.status.result = .range) ∧ ∀ j, t.job = some j → j.n = s.dlen.setWidth 32 + 4 ∧ j.i = 0
    | .probe => (t.job = none ↔ t.status.result = .range) ∧ ∀ j, t.job = some j → j.n = 8 ∧ j.i = 0) ∧
  ∀ (w : Word) (e : Reject) (s t : State), s.job = none → decode w = .error e → presentWord w s = .next t → t.job = none

/-! ## Control commands (40_control.md) -/

/-- R110: NOP, and its word. -/
def Obligations.NopFinishesOk : Prop :=
  encode .nop = 0x00000000 ∧
  (∀ s : State, s.job = none → exec .nop s = .next { s with resp := some .okay, status := doneStatus 0x00 .ok }) ∧
  (∀ (s : State) (j : Job), s.job = some j → exec .nop s = .next { s with resp := some .busError })

/-- R113: DEADLINE while busy ends an RX command with TIMEDOUT, PROBE as NOTDETECTED, and does nothing to another job; the
write completes OKAY. R114: while idle it changes nothing: not STATUS, not any register, not the ports. -/
def Obligations.DeadlineEndsOnlyABusyReceive : Prop :=
  encode .deadline = 0x000000FF ∧
  (∀ (s : State) (j : Job), s.job = some j →
    exec .deadline s = .next (
      if j.op = .probe then
        { s with resp := some .okay, job := none,
                 status := { s.status with done := true, result := .timedOut, cls := .notDetected } }
      else if j.op = .rxHdr ∨ j.op = .rxBody ∨ j.op = .rxRaw then
        { s with resp := some .okay, job := none, status := { s.status with done := true, result := .timedOut } }
      else { s with resp := some .okay })) ∧
  (∀ s : State, s.job = none → exec .deadline s = .next { s with resp := some .okay })

/-- R115: a DEADLINE and the engine step that takes the last byte an RX command needs, or faces EOS: whichever comes first
decides the outcome, and the other then changes nothing (a DEADLINE write its own completion, OKAY). -/
def Obligations.DeadlineRaceIsDecidedByTheFirst : Prop :=
  (∀ (s : State) (j : Job) (b : Byte) (q : List Byte) (rest : List Event),
    Inv s → s.job = some j → j.op.isRx = true → s.rxq = b :: q → j.i + 1 = j.n →
      (s.agenda = .engine :: cmdWrite 0x000000FF :: rest →
        ∃ u, step s = .next u ∧ u.job = none ∧ u.status.done = true ∧ u.status.result = .ok ∧
          u.rxq = q ∧ u.rxCnt = s.rxCnt + 1 ∧ step u = .next { u with agenda := rest, resp := some .okay }) ∧
      (s.agenda = cmdWrite 0x000000FF :: .engine :: rest →
        ∃ u, step s = .next u ∧ u.job = none ∧ u.status.done = true ∧ u.status.result = .timedOut ∧
          u.rxq = b :: q ∧ u.rxCnt = s.rxCnt ∧ ∀ t, step u = .next t → t = { u with agenda := rest })) ∧
  (∀ (s : State) (j : Job) (rest : List Event),
    s.job = some j → j.op.isRx = true → s.rxq = [] → s.rxEos = true →
      (s.agenda = .engine :: cmdWrite 0x000000FF :: rest →
        ∃ u, step s = .next u ∧ u.job = none ∧ u.status.done = true ∧ u.status.result = .closed ∧
          step u = .next { u with agenda := rest, resp := some .okay }) ∧
      (s.agenda = cmdWrite 0x000000FF :: .engine :: rest →
        ∃ u, step s = .next u ∧ u.job = none ∧ u.status.done = true ∧ u.status.result = .timedOut ∧
          ∀ t, step u = .next t → t = { u with agenda := rest }))

/-- The model's choice (log entry 4, DESIGN CHOICE and DEDUCED): where R104, R219 and R241 give the engine no step
(idle, an RX command facing EMPTY, ENCODE facing TXREADY = 0), a turn of the engine still answers, with the same state:
the machine waits. -/
def Obligations.EngineWaitsWithoutAStep : Prop :=
  (∀ s : State, s.job = none → engineStep s = .next s) ∧
  (∀ (s : State) (j : Job), s.job = some j → j.op.isRx = true → s.rxq = [] → s.rxEos = false → engineStep s = .next s) ∧
  (∀ (s : State) (j : Job), s.job = some j → j.op = .encode → s.txReady = false → engineStep s = .next s)

/-! ## The checksum engine (41_checksum.md) -/

/-- R122 and the source's reference values (95_test_vectors.md section 2): checksum("123456789"), checksum of nothing,
checksum("A"), checksum("RUSEF"). -/
def Obligations.ChecksumReferenceValues : Prop :=
  checksum [0x31, 0x32, 0x33, 0x34, 0x35, 0x36, 0x37, 0x38, 0x39] = 0xCBF43926 ∧ checksum [] = 0x00000000 ∧
  checksum [0x41] = 0xD3D99E8B ∧ checksum [0x52, 0x55, 0x53, 0x45, 0x46] = 0x04695B2A

/-- R123: the printed table is T[i] = reduce8(zext_32(i)) for i in 0..255, with 256 entries. -/
def Obligations.TableIsTheReductionOfItsIndex : Prop :=
  crcTable.length = 256 ∧ ∀ i : Byte, tableEntry i = reduce8 (i.setWidth 32)

/-- R124: the table-driven form of the byte step equals rule R121's for every r and b. -/
def Obligations.TableStepEqualsBitwiseStep : Prop :=
  ∀ (r : Word) (b : Byte), crcStep r b = (r >>> 8) ^^^ tableEntry ((r ^^^ b.setWidth 32).extractLsb' 0 8)

/-- R130: the four laws of the checksum arithmetic: the zero step, linearity of the step and the table, the empty
checksum, and the residue of a sequence followed by its own checksum. -/
def Obligations.ChecksumLawsAndResidue : Prop :=
  crcStep 0 0 = 0 ∧
  (∀ (r1 r2 : Word) (b1 b2 : Byte), crcStep (r1 ^^^ r2) (b1 ^^^ b2) = crcStep r1 b1 ^^^ crcStep r2 b2) ∧
  (∀ i j : Byte, tableEntry (i ^^^ j) = tableEntry i ^^^ tableEntry j) ∧
  checksum [] = 0x00000000 ∧
  (∀ bs : List Byte, crcFold 0xFFFFFFFF (bs ++ le32Bytes (checksum bs)) = 0xDEBB20E3) ∧ ~~~ 0xDEBB20E3#32 = 0x2144DF1C

/-- R125: CRC_INIT, and its word. -/
def Obligations.CrcInitRestartsCrc : Prop :=
  encode .crcInit = 0x00000001 ∧
  (∀ s : State, s.job = none →
    exec .crcInit s = .next { s with resp := some .okay, crc := 0xFFFFFFFF, status := doneStatus 0x01 .ok }) ∧
  (∀ (s : State) (j : Job), s.job = some j → exec .crcInit s = .next { s with resp := some .busError })

/-- R126: CRC_BYTE steps the register from whatever CRC holds; a sequence of them after CRC_INIT or after reset leaves
CRCOUT = checksum of the bytes in the order written. R233: after reset CRCOUT = 0, the checksum of no byte, and no
CRC_INIT is needed. -/
def Obligations.CrcByteStepsCrc : Prop :=
  (∀ imm : Byte, encode (.crcByte imm) = 0x00000002 ||| (imm.setWidth 32 <<< 8)) ∧
  (∀ (s : State) (imm : Byte), s.job = none →
    exec (.crcByte imm) s =
      .next { s with resp := some .okay, crc := crcStep s.crc imm, status := doneStatus 0x02 .ok }) ∧
  (∀ (s : State) (imm : Byte) (j : Job), s.job = some j →
    exec (.crcByte imm) s = .next { s with resp := some .busError }) ∧
  (∀ (s : State) (e : Event) (bs : List Byte) (rest : List Event),
    e = .reset ∨ (s.job = none ∧ e = cmdWrite (encode .crcInit)) →
    s.agenda = e :: (bs.map fun b => cmdWrite (encode (.crcByte b))) ++ rest →
      (∃ u, step s = .next u ∧ u.crcOut = 0 ∧ checksum [] = 0) ∧
      ∃ t, Host.Core.run core (bs.length + 1) s = .next t ∧ t.crcOut = checksum bs ∧ t.job = none ∧ t.agenda = rest)

/-- R127: CRC_BUF's word and start rule; the engine step it shares with CRC_CALC and CRC_CHECK (with R129's compare at
the end of the latter); an UNDEF byte is a model fault; DEADLINE does not end it; and over defined bytes, with an empty
agenda, it ends OK in LEN steps with CRC continued over BUF[ADDR : ADDR + LEN] and nothing else changed. The job fields
R127 does not give are left open. -/
def Obligations.CrcBufContinuesTheChecksum : Prop :=
  encode .crcBuf = 0x00000003 ∧
  (∀ s : State, s.job = none → ∃ c acc, exec .crcBuf s = .next (
    if s.cfg.bufBytes < s.addr.toNat + s.len.toNat then
      { s with resp := some .okay, status := doneStatus 0x03 .range }
    else if s.len = 0 then { s with resp := some .okay, status := doneStatus 0x03 .ok }
    else { s with resp := some .okay, status := busyStatus 0x03,
                  job := some { op := .crcBuf, a := s.addr, n := s.len, i := 0, c := c, acc := acc } })) ∧
  (∀ (s : State) (j : Job), s.job = some j → exec .crcBuf s = .next { s with resp := some .busError }) ∧
  (∀ (s : State) (j : Job) (b : Byte), s.job = some j → j.op ∈ [JobOp.crcBuf, .crcCalc, .crcCheck] →
    j.a.toNat + j.i.toNat < s.cfg.bufBytes → s.buf.read (j.a.toNat + j.i.toNat) = some b →
      engineStep s = .next (
        if j.i + 1 = j.n then
          { s with crc := crcStep s.crc b, job := none,
                   status := { s.status with done := true, result := .ok, matched :=
                     if j.op = .crcCheck then decide (~~~ crcStep s.crc b = s.claim) else s.status.matched } }
        else { s with crc := crcStep s.crc b, job := some { j with i := j.i + 1 } })) ∧
  (∀ (s : State) (j : Job), s.job = some j → j.op ∈ [JobOp.crcBuf, .crcCalc, .crcCheck] →
    j.a.toNat + j.i.toNat < s.cfg.bufBytes → s.buf.read (j.a.toNat + j.i.toNat) = none →
      engineStep s = .fault (.undefByte (j.a.toNat + j.i.toNat))) ∧
  (∀ (s : State) (j : Job), s.job = some j → j.op ∈ [JobOp.crcBuf, .crcCalc, .crcCheck] →
    exec .deadline s = .next { s with resp := some .okay }) ∧
  (∀ (s : State) (bs : List Byte), s.job = none → s.agenda = [] → s.addr.toNat + s.len.toNat ≤ s.cfg.bufBytes →
    s.readSlice s.addr.toNat s.len.toNat = .ok bs →
      ∃ u, exec .crcBuf s = .next u ∧ Host.Core.run core s.len.toNat u =
        .next { s with resp := some .okay, crc := crcFold s.crc bs, status := doneStatus 0x03 .ok })

/-- R128: CRC_CALC's start rule, the job fields it does not give left open, and that a CRC_CALC over defined bytes, with
an empty agenda, finishes OK in LEN steps with CRCOUT = checksum(BUF[ADDR : ADDR + LEN]). -/
def Obligations.CrcCalcComputesTheChecksum : Prop :=
  encode .crcCalc = 0x00000004 ∧
  (∀ s : State, s.job = none → ∃ c acc, exec .crcCalc s = .next (
    if s.cfg.bufBytes < s.addr.toNat + s.len.toNat then
      { s with resp := some .okay, status := doneStatus 0x04 .range }
    else if s.len = 0 then { s with resp := some .okay, crc := 0xFFFFFFFF, status := doneStatus 0x04 .ok }
    else { s with resp := some .okay, crc := 0xFFFFFFFF, status := busyStatus 0x04,
                  job := some { op := .crcCalc, a := s.addr, n := s.len, i := 0, c := c, acc := acc } })) ∧
  (∀ (s : State) (j : Job), s.job = some j → exec .crcCalc s = .next { s with resp := some .busError }) ∧
  (∀ (s : State) (bs : List Byte), s.job = none → s.agenda = [] → s.addr.toNat + s.len.toNat ≤ s.cfg.bufBytes →
    s.readSlice s.addr.toNat s.len.toNat = .ok bs →
      ∃ u, exec .crcCalc s = .next u ∧ ∃ t, Host.Core.run core s.len.toNat u = .next t ∧ t.crcOut = checksum bs ∧
        t = { s with resp := some .okay, crc := crcFold 0xFFFFFFFF bs, status := doneStatus 0x04 .ok })

/-- R129: CRC_CHECK's start rule, the job fields it does not give left open, and that a CRC_CHECK over defined bytes, with
an empty agenda, finishes OK in LEN steps with MATCH = 1 exactly when checksum(content) = CLAIM. -/
def Obligations.CrcCheckComparesWithClaim : Prop :=
  encode .crcCheck = 0x00000005 ∧
  (∀ s : State, s.job = none → ∃ c acc, exec .crcCheck s = .next (
    if s.cfg.bufBytes < s.addr.toNat + s.len.toNat then
      { s with resp := some .okay, status := doneStatus 0x05 .range }
    else if s.len = 0 then
      { s with resp := some .okay, crc := 0xFFFFFFFF,
               status := { doneStatus 0x05 .ok with matched := decide (s.claim = 0x00000000) } }
    else { s with resp := some .okay, crc := 0xFFFFFFFF, status := busyStatus 0x05,
                  job := some { op := .crcCheck, a := s.addr, n := s.len, i := 0, c := c, acc := acc } })) ∧
  (∀ (s : State) (j : Job), s.job = some j → exec .crcCheck s = .next { s with resp := some .busError }) ∧
  (∀ (s : State) (bs : List Byte), s.job = none → s.agenda = [] → s.addr.toNat + s.len.toNat ≤ s.cfg.bufBytes →
    s.readSlice s.addr.toNat s.len.toNat = .ok bs →
      ∃ u, exec .crcCheck s = .next u ∧ Host.Core.run core s.len.toNat u =
        .next { s with resp := some .okay, crc := crcFold 0xFFFFFFFF bs,
                       status := { doneStatus 0x05 .ok with matched := decide (checksum bs = s.claim) } })

/-- R127 to R129, R104: whatever the other agents do meanwhile, a step leaves a checksum job in progress over the same
bytes, or finishes it with CRC folded over all of them, or is a reset. -/
def Obligations.ChecksumJobSurvivesEveryInterleaving : Prop :=
  ∀ (op : JobOp) (c0 : Word) (bs : List Byte) (s t : State) (j : Job), op ∈ [JobOp.crcBuf, .crcCalc, .crcCheck] →
    ChecksumAt op c0 bs s j → step s = .next t →
      (∃ j', ChecksumAt op c0 bs t j' ∧ (j'.i = j.i ∨ j'.i = j.i + 1)) ∨
      (t.job = none ∧ t.crc = crcFold c0 bs ∧ t.status.done = true ∧ t.status.result = .ok ∧
        t.status.matched = decide (op = .crcCheck ∧ ~~~ crcFold c0 bs = s.claim)) ∨
      (∃ rest, s.agenda = .reset :: rest)

/-! ## The packet codec (42_codec.md) -/

/-- R140: an outbound frame's bytes, and their number. -/
def Obligations.FrameLayout : Prop :=
  ∀ (c : Byte) (p : List Byte),
    frame c p =
      [(BitVec.ofNat 16 (1 + p.length)).extractLsb' 0 8, (BitVec.ofNat 16 (1 + p.length)).extractLsb' 8 8] ++ [c] ++ p ++
      [(checksum ([c] ++ p)).extractLsb' 0 8, (checksum ([c] ++ p)).extractLsb' 8 8,
       (checksum ([c] ++ p)).extractLsb' 16 8, (checksum ([c] ++ p)).extractLsb' 24 8] ∧
    (frame c p).length = p.length + 7

/-- R143: ENCODE's word, start rule (J.acc, which it does not give, left open) and busy refusal, its engine step byte by
byte, that no turn of the engine does anything while TXREADY = 0, the model fault of an UNDEF payload
byte, that DEADLINE does not end it; and that over a link that accepts, with an empty agenda, an ENCODE of defined bytes
ends OK in LEN + 7 steps, TXOUT having gained exactly frame(c, BUF[ADDR : ADDR + LEN]). -/
def Obligations.EncodeSendsTheFrame : Prop :=
  (∀ c : Byte, encode (.encode c) = 0x00000010 ||| (c.setWidth 32 <<< 8)) ∧
  (∀ (s : State) (c : Byte), s.job = none → ∃ acc, exec (.encode c) s = .next (
    if 65534 < s.len.toNat then { s with resp := some .okay, status := doneStatus 0x10 .payloadTooLarge }
    else if s.cfg.bufBytes < s.addr.toNat + s.len.toNat then
      { s with resp := some .okay, status := doneStatus 0x10 .range }
    else { s with resp := some .okay, txCnt := 0, crc := 0xFFFFFFFF, status := busyStatus 0x10,
                  job := some { op := .encode, a := s.addr, n := s.len + 7, i := 0, c := c, acc := acc } })) ∧
  (∀ (s : State) (c : Byte) (j : Job), s.job = some j → exec (.encode c) s = .next { s with resp := some .busError }) ∧
  (∀ (s t : State) (j : Job), s.job = some j → j.op = .encode → s.txReady = false → engineStep s = .next t → t = s) ∧
  (∀ (s : State) (j : Job) (b : Byte) (p k : Nat), s.job = some j → j.op = .encode → s.txReady = true →
    p = j.n.toNat - 7 → k = j.i.toNat →
    (if k = 0 then b = byteOf 0 (BitVec.ofNat 32 (p + 1))
     else if k = 1 then b = byteOf 1 (BitVec.ofNat 32 (p + 1))
     else if k = 2 then b = j.c
     else if k < 3 + p then j.a.toNat + (k - 3) < s.cfg.bufBytes ∧ s.buf.read (j.a.toNat + (k - 3)) = some b
     else b = byteOf (k - 3 - p) (~~~ s.crc)) →
      engineStep s = .next (
        if j.i + 1 = j.n then
          { s with txOut := s.txOut ++ [b], txCnt := s.txCnt + 1, job := none,
                   crc := if 2 ≤ k ∧ k < 3 + p then crcStep s.crc b else s.crc,
                   status := { s.status with done := true, result := .ok } }
        else
          { s with txOut := s.txOut ++ [b], txCnt := s.txCnt + 1, job := some { j with i := j.i + 1 },
                   crc := if 2 ≤ k ∧ k < 3 + p then crcStep s.crc b else s.crc })) ∧
  (∀ (s : State) (j : Job), s.job = some j → j.op = .encode → s.txReady = true → 3 ≤ j.i.toNat →
    j.i.toNat < 3 + (j.n.toNat - 7) → j.a.toNat + (j.i.toNat - 3) < s.cfg.bufBytes →
    s.buf.read (j.a.toNat + (j.i.toNat - 3)) = none →
      engineStep s = .fault (.undefByte (j.a.toNat + (j.i.toNat - 3)))) ∧
  (∀ (s : State) (j : Job), s.job = some j → j.op = .encode → exec .deadline s = .next { s with resp := some .okay }) ∧
  (∀ (s : State) (c : Byte) (p : List Byte), s.job = none → s.agenda = [] → s.txReady = true → s.len.toNat ≤ 65534 →
    s.addr.toNat + s.len.toNat ≤ s.cfg.bufBytes → s.readSlice s.addr.toNat s.len.toNat = .ok p →
      ∃ u, exec (.encode c) s = .next u ∧ ∃ t, Host.Core.run core (s.len.toNat + 7) u = .next t ∧
        t.crcOut = checksum ([c] ++ p) ∧
        t = { s with resp := some .okay, txOut := s.txOut ++ frame c p, txCnt := s.len + 7,
                     crc := crcFold 0xFFFFFFFF ([c] ++ p), status := doneStatus 0x10 .ok })

/-- R143, R104, R42: under every interleaving, an ENCODE in progress goes on with the same frame, or has handed over
exactly the whole frame and finished OK, or is ended by a reset. -/
def Obligations.EncodeSendsTheFrameUnderEveryInterleaving : Prop :=
  ∀ (c : Byte) (p sent : List Byte) (s t : State) (j : Job), EncodeAt c p sent s j → step s = .next t →
    (∃ j', EncodeAt c p sent t j' ∧ (j'.i = j.i ∨ j'.i = j.i + 1)) ∨
    (t.job = none ∧ t.status = doneStatus 0x10 .ok ∧ t.txOut = sent ++ frame c p ∧ t.crcOut = checksum ([c] ++ p)) ∨
    (∃ rest, s.agenda = .reset :: rest)

/-- R146: ENCODE fails with PAYLOAD_TOO_LARGE exactly when LEN > 65534, and never for another reason except RANGE. -/
def Obligations.PayloadTooLargeExactlyAbove65534 : Prop :=
  ∀ (s t : State) (c : Byte), s.job = none → exec (.encode c) s = .next t →
    (t.status.result = .payloadTooLarge ↔ 65534 < s.len.toNat) ∧
    (t.job = none → t.status.result = .payloadTooLarge ∨ t.status.result = .range)

/-- R144: DECLEN's word; TRUNCATED_HEADER before RANGE; the first two bytes, little-endian; a model fault if either is
UNDEF. -/
def Obligations.DeclenDecodesTheLength : Prop :=
  encode .declen = 0x00000011 ∧
  (∀ s : State, s.job = none → s.len.toNat < 2 →
    exec .declen s = .next { s with resp := some .okay, status := doneStatus 0x11 .truncatedHeader }) ∧
  (∀ s : State, s.job = none → 2 ≤ s.len.toNat → s.cfg.bufBytes < s.addr.toNat + s.len.toNat →
    exec .declen s = .next { s with resp := some .okay, status := doneStatus 0x11 .range }) ∧
  (∀ (s : State) (b0 b1 : Byte), s.job = none → 2 ≤ s.len.toNat → s.addr.toNat + s.len.toNat ≤ s.cfg.bufBytes →
    s.buf.read s.addr.toNat = some b0 → s.buf.read (s.addr.toNat + 1) = some b1 →
      exec .declen s = .next { s with resp := some .okay, status := doneStatus 0x11 .ok,
                                      dlen := b0.setWidth 16 ||| (b1.setWidth 16 <<< 8) }) ∧
  (∀ s : State, s.job = none → 2 ≤ s.len.toNat → s.addr.toNat + s.len.toNat ≤ s.cfg.bufBytes →
    s.buf.read s.addr.toNat = none ∨ s.buf.read (s.addr.toNat + 1) = none →
      ∃ a, exec .declen s = .fault (.undefByte a) ∧ s.buf.read a = none) ∧
  (∀ (s : State) (j : Job), s.job = some j → exec .declen s = .next { s with resp := some .busError })

/-- R145: the round trip, in both forms, over agendas written out. The bytes an ENCODE of (c, p) adds to TXOUT are
received back by RXHDR and RXBODY with DLEN = 1 + len(p), the content in BUF, CLAIM its checksum and MATCH = 1; and
placed in BUF they give the same through DECLEN and CRC_CHECK. -/
def Obligations.EncodedFramesDecodeBack : Prop :=
  ∀ (c : Byte) (p F : List Byte) (s u : State),
    s.job = none → s.agenda = [] → s.txReady = true → s.len.toNat ≤ 65534 →
    s.addr.toNat + s.len.toNat ≤ s.cfg.bufBytes → s.readSlice s.addr.toNat s.len.toNat = .ok p →
    exec (.encode c) s = .next u → (∃ t, Host.Core.run core (s.len.toNat + 7) u = .next t ∧ t.txOut = s.txOut ++ F) →
      (∀ (r : State) (a : Word), r.job = none → r.rxq = F → a.toNat + (1 + p.length) ≤ r.cfg.bufBytes →
        r.agenda = [cmdWrite (encode .rxHdr), .engine, .engine, .host 0x08 (.write (.word a)),
                    cmdWrite (encode .rxBody)] →
          (∃ t, Host.Core.run core 3 r = .next t ∧ t.status = doneStatus 0x21 .ok ∧ t.dlen.toNat = 1 + p.length) ∧
          (∃ t, Host.Core.run core (5 + (1 + p.length + 4)) r = .next t ∧
            t.status = { doneStatus 0x22 .ok with matched := true } ∧ t.claim = checksum ([c] ++ p) ∧
            t.readSlice a.toNat (1 + p.length) = .ok ([c] ++ p) ∧ t.rxq = [])) ∧
      (∀ (r : State) (a a2 len len2 cl : Word) (b0 b1 b2 b3 : Byte), r.job = none →
        r.readSlice a.toNat (p.length + 7) = .ok F → len.toNat = p.length + 7 → a2.toNat = a.toNat + 2 →
        len2.toNat = 1 + p.length → r.readSlice (a.toNat + 3 + p.length) 4 = .ok [b0, b1, b2, b3] →
        cl = le32 b0 b1 b2 b3 →
        r.agenda = [.host 0x08 (.write (.word a)), .host 0x0C (.write (.word len)), cmdWrite (encode .declen),
                    .host 0x08 (.write (.word a2)), .host 0x0C (.write (.word len2)), .host 0x18 (.write (.word cl)),
                    cmdWrite (encode .crcCheck)] →
          (∃ t, Host.Core.run core 3 r = .next t ∧ t.status = doneStatus 0x11 .ok ∧ t.dlen.toNat = 1 + p.length) ∧
          (∃ t, Host.Core.run core (7 + (1 + p.length)) r = .next t ∧
            t.status = { doneStatus 0x05 .ok with matched := true }))

/-! ## The receiver (43_receive.md) -/

/-- R162: RXRAW: its word, start rule (the job fields it does not give left open), busy refusal, byte and completion
rule, close rule and timeout rule; and that, with an empty agenda, where the stream ends before LEN bytes it ends CLOSED
with the bytes that came counted and stored. -/
def Obligations.RxRawReceivesOrCloses : Prop :=
  encode .rxRaw = 0x00000024 ∧
  (∀ s : State, s.job = none → ∃ c acc, exec .rxRaw s = .next (
    if s.cfg.bufBytes < s.addr.toNat + s.len.toNat then
      { s with resp := some .okay, status := doneStatus 0x24 .range }
    else if s.len = 0 then { s with resp := some .okay, rxCnt := 0, status := doneStatus 0x24 .ok }
    else { s with resp := some .okay, rxCnt := 0, status := busyStatus 0x24,
                  job := some { op := .rxRaw, a := s.addr, n := s.len, i := 0, c := c, acc := acc } })) ∧
  (∀ (s : State) (j : Job), s.job = some j → exec .rxRaw s = .next { s with resp := some .busError }) ∧
  (∀ (s : State) (j : Job) (b : Byte) (q : List Byte), s.job = some j → j.op = .rxRaw → s.rxq = b :: q →
    j.a.toNat + j.i.toNat < s.cfg.bufBytes →
      engineStep s = .next (
        if j.i + 1 = j.n then
          { s with rxq := q, rxCnt := s.rxCnt + 1, buf := s.buf.write (j.a.toNat + j.i.toNat) b, job := none,
                   status := { s.status with done := true, result := .ok } }
        else
          { s with rxq := q, rxCnt := s.rxCnt + 1, buf := s.buf.write (j.a.toNat + j.i.toNat) b,
                   job := some { j with i := j.i + 1 } })) ∧
  (∀ (s : State) (j : Job), s.job = some j → j.op = .rxRaw → s.rxq = [] → s.rxEos = true →
    engineStep s = .next { s with job := none, status := { s.status with done := true, result := .closed } }) ∧
  (∀ (s : State) (j : Job), s.job = some j → j.op = .rxRaw →
    exec .deadline s = .next { s with resp := some .okay, job := none,
                                      status := { s.status with done := true, result := .timedOut } }) ∧
  (∀ (s : State) (bs : List Byte), s.job = none → s.agenda = [] → s.rxq = bs → s.rxEos = true →
    bs.length < s.len.toNat → s.addr.toNat + s.len.toNat ≤ s.cfg.bufBytes →
      ∃ u, exec .rxRaw s = .next u ∧ ∃ t, Host.Core.run core (bs.length + 1) u = .next t ∧
        t.readSlice s.addr.toNat bs.length = .ok bs ∧
        t = { s with resp := some .okay, rxq := [], rxCnt := BitVec.ofNat 32 bs.length, buf := t.buf,
                     status := doneStatus 0x24 .closed })

/-- R160, R162, R168: with LEN bytes waiting and an empty agenda, an RXRAW ends OK in LEN steps: it has taken exactly
those bytes, in order, into BUF[ADDR : ADDR + LEN]; later bytes stay in RXQ and no other byte of BUF changes. -/
def Obligations.RxRawTakesExactlyLenBytes : Prop :=
  ∀ (s : State) (bs rest : List Byte), s.job = none → s.agenda = [] → s.rxq = bs ++ rest → bs.length = s.len.toNat →
    s.addr.toNat + s.len.toNat ≤ s.cfg.bufBytes →
      ∃ u, exec .rxRaw s = .next u ∧ ∃ t, Host.Core.run core s.len.toNat u = .next t ∧
        t.readSlice s.addr.toNat s.len.toNat = .ok bs ∧
        (∀ x, x < s.addr.toNat ∨ s.addr.toNat + s.len.toNat ≤ x → t.buf.read x = s.buf.read x) ∧
        t = { s with resp := some .okay, rxq := rest, rxCnt := s.len, buf := t.buf, status := doneStatus 0x24 .ok }

/-- R160: whatever the sizes and times of the deliveries and whatever else happens, an RXRAW in progress stores the
concatenation of the deliveries in order: a step adds to the stream exactly what the link delivers in it, and goes on; or
it ends the command OK with the first n bytes, CLOSED with all of them, or TIMEDOUT with those taken; or it is a reset. -/
def Obligations.RxRawStoresTheDeliveriesInOrder : Prop :=
  ∀ (a n : Nat) (stream : List Byte) (s t : State) (j : Job), FillAt .rxRaw a n stream s j → step s = .next t →
    (∃ j', FillAt .rxRaw a n (stream ++ s.delivered) t j' ∧ (j'.i = j.i ∨ j'.i = j.i + 1)) ∨
    (EngineNext s ∧ t.job = none ∧ t.status = doneStatus 0x24 .ok ∧ n ≤ stream.length ∧
      t.readSlice a n = .ok (stream.take n) ∧ t.rxq = stream.drop n ∧ t.rxCnt = BitVec.ofNat 32 n) ∨
    (EngineNext s ∧ s.rxEos = true ∧ t.job = none ∧ t.status = doneStatus 0x24 .closed ∧ stream.length < n ∧
      t.readSlice a stream.length = .ok stream ∧ t.rxq = [] ∧ t.rxCnt = BitVec.ofNat 32 stream.length) ∨
    (CmdNext 0x000000FF s ∧ t.job = none ∧ t.status = doneStatus 0x24 .timedOut ∧ t.rxq = s.rxq ∧ t.rxCnt = s.rxCnt ∧
      t.buf = s.buf) ∨
    (∃ rest, s.agenda = .reset :: rest)

/-- R163: RXHDR: its word, start rule (the job fields it does not give left open), busy refusal, byte rule, completion
rule (the assembly register, which the invariant keeps within 16 bits, becomes DLEN), close rule and timeout rule (DLEN
unchanged), and that the first two bytes waiting become DLEN = LE16(b0, b1). -/
def Obligations.RxHdrReadsTheLength : Prop :=
  encode .rxHdr = 0x00000021 ∧
  (∀ s : State, s.job = none → ∃ a c, exec .rxHdr s = .next
    { s with resp := some .okay, rxCnt := 0, status := busyStatus 0x21,
             job := some { op := .rxHdr, a := a, n := 2, i := 0, c := c, acc := 0 } }) ∧
  (∀ (s : State) (j : Job), s.job = some j → exec .rxHdr s = .next { s with resp := some .busError }) ∧
  (∀ (s : State) (j : Job) (b : Byte) (q : List Byte), s.job = some j → j.op = .rxHdr → s.rxq = b :: q →
    j.i + 1 ≠ j.n →
      engineStep s = .next
        { s with rxq := q, rxCnt := s.rxCnt + 1,
                 job := some { j with i := j.i + 1, acc := j.acc ||| (b.setWidth 32 <<< (8 * j.i.toNat)) } }) ∧
  (∀ (s : State) (j : Job) (b : Byte) (q : List Byte), Inv s → s.job = some j → j.op = .rxHdr → s.rxq = b :: q →
    j.i + 1 = j.n →
      ∃ d : Half, d.setWidth 32 = j.acc ||| (b.setWidth 32 <<< (8 * j.i.toNat)) ∧
        engineStep s = .next
          { s with rxq := q, rxCnt := s.rxCnt + 1, dlen := d, job := none,
                   status := { s.status with done := true, result := .ok } }) ∧
  (∀ (s : State) (j : Job), s.job = some j → j.op = .rxHdr → s.rxq = [] → s.rxEos = true →
    engineStep s = .next { s with job := none, status := { s.status with done := true, result := .closed } }) ∧
  (∀ (s : State) (j : Job), s.job = some j → j.op = .rxHdr →
    exec .deadline s = .next { s with resp := some .okay, job := none,
                                      status := { s.status with done := true, result := .timedOut } }) ∧
  (∀ (s : State) (b0 b1 : Byte) (rest : List Byte), s.job = none → s.agenda = [] → s.rxq = b0 :: b1 :: rest →
    ∃ u, exec .rxHdr s = .next u ∧ Host.Core.run core 2 u = .next
      { s with resp := some .okay, rxCnt := 2, rxq := rest, status := doneStatus 0x21 .ok,
               dlen := b0.setWidth 16 ||| (b1.setWidth 16 <<< 8) })

/-- R164: RXBODY's word, start rule (J.c, which it does not give, left open) and busy refusal. R165: its byte rule with
L = J.n - 4, while the job goes on: text to BUF and CRC, then the claimed checksum little-endian into the assembly
register. R166: its completion, close and timeout rules. -/
def Obligations.RxBodyStartsAndSteps : Prop :=
  encode .rxBody = 0x00000022 ∧
  (∀ s : State, s.job = none → ∃ c, exec .rxBody s = .next (
    if s.cfg.bufBytes < s.addr.toNat + s.dlen.toNat then
      { s with resp := some .okay, status := doneStatus 0x22 .range }
    else { s with resp := some .okay, rxCnt := 0, crc := 0xFFFFFFFF, status := busyStatus 0x22,
                  job := some { op := .rxBody, a := s.addr, n := s.dlen.setWidth 32 + 4, i := 0, c := c, acc := 0 } })) ∧
  (∀ (s : State) (j : Job), s.job = some j → exec .rxBody s = .next { s with resp := some .busError }) ∧
  (∀ (s : State) (j : Job) (b : Byte) (q : List Byte), s.job = some j → j.op = .rxBody → s.rxq = b :: q →
    j.i + 1 ≠ j.n → (j.i.toNat < j.n.toNat - 4 → j.a.toNat + j.i.toNat < s.cfg.bufBytes) →
      engineStep s = .next (
        if j.i.toNat < j.n.toNat - 4 then
          { s with rxq := q, rxCnt := s.rxCnt + 1, buf := s.buf.write (j.a.toNat + j.i.toNat) b,
                   crc := crcStep s.crc b, job := some { j with i := j.i + 1 } }
        else
          { s with rxq := q, rxCnt := s.rxCnt + 1,
                   job := some { j with i := j.i + 1,
                                        acc := j.acc ||| (b.setWidth 32 <<< (8 * (j.i.toNat - (j.n.toNat - 4)))) } })) ∧
  (∀ (s : State) (j : Job) (b : Byte) (q : List Byte) (acc : Word), s.job = some j → j.op = .rxBody → s.rxq = b :: q →
    j.i + 1 = j.n → 4 ≤ j.n.toNat → acc = j.acc ||| (b.setWidth 32 <<< (8 * (j.i.toNat - (j.n.toNat - 4)))) →
      engineStep s = .next
        { s with rxq := q, rxCnt := s.rxCnt + 1, job := none, claim := acc,
                 status := { s.status with done := true, result := .ok, matched := decide (~~~ s.crc = acc) } }) ∧
  (∀ (s : State) (j : Job), s.job = some j → j.op = .rxBody → s.rxq = [] → s.rxEos = true →
    engineStep s = .next { s with job := none, status := { s.status with done := true, result := .closed } }) ∧
  (∀ (s : State) (j : Job), s.job = some j → j.op = .rxBody →
    exec .deadline s = .next { s with resp := some .okay, job := none,
                                      status := { s.status with done := true, result := .timedOut } })

/-- R164 to R166: with DLEN text bytes and four checksum bytes waiting and an empty agenda, an RXBODY ends OK in DLEN +
4 steps with the text in BUF, CLAIM the checksum received and MATCH = 1 exactly when it is the text's. -/
def Obligations.RxBodyReceivesAndChecks : Prop :=
  ∀ (s : State) (x rest : List Byte) (b0 b1 b2 b3 : Byte), s.job = none → s.agenda = [] →
    s.rxq = x ++ [b0, b1, b2, b3] ++ rest → x.length = s.dlen.toNat → s.addr.toNat + x.length ≤ s.cfg.bufBytes →
      ∃ u, exec .rxBody s = .next u ∧ ∃ t, Host.Core.run core (x.length + 4) u = .next t ∧
        t.readSlice s.addr.toNat x.length = .ok x ∧
        (∀ y, y < s.addr.toNat ∨ s.addr.toNat + x.length ≤ y → t.buf.read y = s.buf.read y) ∧
        t = { s with resp := some .okay, rxq := rest, rxCnt := BitVec.ofNat 32 (x.length + 4), buf := t.buf,
                     crc := crcFold 0xFFFFFFFF x, claim := le32 b0 b1 b2 b3,
                     status := { doneStatus 0x22 .ok with matched := decide (checksum x = le32 b0 b1 b2 b3) } }

/-- R160, R163 to R166: whatever the sizes and times of the deliveries and whatever else happens, an RXHDR in progress
ends OK with DLEN the first two bytes delivered, and an RXBODY with the text in BUF, CLAIM the four bytes after it and
MATCH = 1 exactly when CLAIM is the text's checksum; with fewer bytes before EOS or a DEADLINE they end CLOSED or
TIMEDOUT, DLEN and CLAIM unchanged; or the step is a reset. -/
def Obligations.HeaderAndBodyReceiveTheDeliveries : Prop :=
  (∀ (stream : List Byte) (s t : State) (j : Job), HeaderAt stream s j → step s = .next t →
    (∃ j', HeaderAt (stream ++ s.delivered) t j' ∧ t.dlen = s.dlen ∧ (j'.i = j.i ∨ j'.i = j.i + 1)) ∨
    (EngineNext s ∧ t.job = none ∧ t.status = doneStatus 0x21 .ok ∧ t.rxCnt = 2 ∧ ∃ b0 b1,
      stream = b0 :: b1 :: t.rxq ∧ t.dlen = b0.setWidth 16 ||| (b1.setWidth 16 <<< 8)) ∨
    (EngineNext s ∧ s.rxEos = true ∧ t.job = none ∧ t.status = doneStatus 0x21 .closed ∧ stream.length < 2 ∧
      t.rxq = [] ∧ t.rxCnt = BitVec.ofNat 32 stream.length ∧ t.dlen = s.dlen) ∨
    (CmdNext 0x000000FF s ∧ t.job = none ∧ t.status = doneStatus 0x21 .timedOut ∧ t.rxq = s.rxq ∧ t.rxCnt = s.rxCnt ∧
      t.dlen = s.dlen) ∨
    (∃ rest, s.agenda = .reset :: rest)) ∧
  (∀ (a l : Nat) (stream : List Byte) (s t : State) (j : Job), BodyAt a l stream s j → step s = .next t →
    (∃ j', BodyAt a l (stream ++ s.delivered) t j' ∧ t.claim = s.claim ∧ (j'.i = j.i ∨ j'.i = j.i + 1)) ∨
    (EngineNext s ∧ t.job = none ∧ t.rxCnt = BitVec.ofNat 32 (l + 4) ∧ ∃ x b0 b1 b2 b3,
      stream = x ++ [b0, b1, b2, b3] ++ t.rxq ∧ x.length = l ∧ t.readSlice a l = .ok x ∧ t.crcOut = checksum x ∧
      t.claim = le32 b0 b1 b2 b3 ∧
      t.status = { doneStatus 0x22 .ok with matched := decide (checksum x = le32 b0 b1 b2 b3) }) ∨
    (EngineNext s ∧ s.rxEos = true ∧ t.job = none ∧ t.status = doneStatus 0x22 .closed ∧ stream.length < l + 4 ∧
      t.readSlice a (min stream.length l) = .ok (stream.take l) ∧ t.crcOut = checksum (stream.take l) ∧
      t.rxq = [] ∧ t.rxCnt = BitVec.ofNat 32 stream.length ∧ t.claim = s.claim) ∨
    (CmdNext 0x000000FF s ∧ t.job = none ∧ t.status = doneStatus 0x22 .timedOut ∧ t.rxq = s.rxq ∧ t.rxCnt = s.rxCnt ∧
      t.buf = s.buf ∧ t.crc = s.crc ∧ t.claim = s.claim) ∨
    (∃ rest, s.agenda = .reset :: rest))

/-- R167: RXFLUSH drops the RX bytes now waiting and counts them; RXEOS is not changed. -/
def Obligations.RxFlushDropsTheWaitingBytes : Prop :=
  encode .rxFlush = 0x00000023 ∧
  (∀ s : State, s.job = none → exec .rxFlush s = .next
    { s with resp := some .okay, rxCnt := BitVec.ofNat 32 (s.rxq.length % 2 ^ 32), rxq := [],
             status := doneStatus 0x23 .ok }) ∧
  (∀ (s : State) (j : Job), s.job = some j → exec .rxFlush s = .next { s with resp := some .busError })

/-! ## The probe (44_probe.md) -/

/-- R180: PROBE's word, start rule (the job fields it does not give left open) and busy refusal. R181: its byte rule,
while the job goes on. R182: its completion rule, over the eight bytes stored. R183: its close and timeout rules
classify NOTDETECTED; BUF and VER stay. -/
def Obligations.ProbeStartsAndEndsEarly : Prop :=
  encode .probe = 0x00000020 ∧
  (∀ s : State, s.job = none → ∃ c acc, exec .probe s = .next (
    if s.cfg.bufBytes < s.addr.toNat + 8 then
      { s with resp := some .okay, status := doneStatus 0x20 .range }
    else { s with resp := some .okay, ver := 0, rxCnt := 0, status := busyStatus 0x20,
                  job := some { op := .probe, a := s.addr, n := 8, i := 0, c := c, acc := acc } })) ∧
  (∀ (s : State) (j : Job), s.job = some j → exec .probe s = .next { s with resp := some .busError }) ∧
  (∀ (s : State) (j : Job) (b : Byte) (q : List Byte), s.job = some j → j.op = .probe → s.rxq = b :: q →
    j.i + 1 ≠ j.n → j.a.toNat + j.i.toNat < s.cfg.bufBytes →
      engineStep s = .next { s with rxq := q, rxCnt := s.rxCnt + 1, buf := s.buf.write (j.a.toNat + j.i.toNat) b,
                                    job := some { j with i := j.i + 1 } }) ∧
  (∀ (s : State) (j : Job) (h0 h1 h2 h3 h4 h5 h6 h7 : Byte) (q : List Byte), s.job = some j → j.op = .probe →
    j.i = 7 → j.n = 8 → j.a.toNat + 8 ≤ s.cfg.bufBytes →
    s.readSlice j.a.toNat 7 = .ok [h0, h1, h2, h3, h4, h5, h6] → s.rxq = h7 :: q →
      engineStep s = .next { s with
        rxq := q, rxCnt := s.rxCnt + 1, buf := s.buf.write (j.a.toNat + 7) h7, job := none,
        ver := if h0 = 0x50 ∧ h1 = 0x00 ∧ h2 = 0x49 ∧ h3 = 0x00
          then h4.setWidth 16 ||| (h5.setWidth 16 <<< 8) else s.ver,
        status := { s.status with done := true, result := .ok, cls :=
          if h0 = 0x50 ∧ h1 = 0x00 ∧ h2 = 0x49 ∧ h3 = 0x00 then .detected else .notDetected } }) ∧
  (∀ (s : State) (j : Job), s.job = some j → j.op = .probe → s.rxq = [] → s.rxEos = true →
    engineStep s = .next { s with job := none, status :=
      { s.status with done := true, result := .closed, cls := .notDetected } }) ∧
  (∀ (s : State) (j : Job), s.job = some j → j.op = .probe →
    exec .deadline s = .next { s with resp := some .okay, job := none, status :=
      { s.status with done := true, result := .timedOut, cls := .notDetected } })

/-- R181, R182: with eight bytes waiting and an empty agenda, a PROBE ends OK in eight steps with the header in BUF:
DETECTED with the version of bytes 4 and 5 when bytes 0 to 3 are the magic constant, else NOTDETECTED with VER = 0. -/
def Obligations.ProbeClassifiesTheHeader : Prop :=
  ∀ (s : State) (h0 h1 h2 h3 h4 h5 h6 h7 : Byte) (rest : List Byte), s.job = none → s.agenda = [] →
    s.rxq = [h0, h1, h2, h3, h4, h5, h6, h7] ++ rest → s.addr.toNat + 8 ≤ s.cfg.bufBytes →
      ∃ u, exec .probe s = .next u ∧ ∃ t, Host.Core.run core 8 u = .next t ∧
        t.readSlice s.addr.toNat 8 = .ok [h0, h1, h2, h3, h4, h5, h6, h7] ∧
        (∀ y, y < s.addr.toNat ∨ s.addr.toNat + 8 ≤ y → t.buf.read y = s.buf.read y) ∧
        t = { s with resp := some .okay, rxq := rest, rxCnt := 8, buf := t.buf,
                     ver := if h0 = 0x50 ∧ h1 = 0x00 ∧ h2 = 0x49 ∧ h3 = 0x00
                       then h4.setWidth 16 ||| (h5.setWidth 16 <<< 8) else 0,
                     status := { doneStatus 0x20 .ok with
                       cls := if h0 = 0x50 ∧ h1 = 0x00 ∧ h2 = 0x49 ∧ h3 = 0x00 then .detected else .notDetected } }

/-- R184, R160: whatever the sizes and times of the deliveries and whatever else happens, a PROBE in progress accumulates
the bytes delivered until there are eight, and classifies those; bytes beyond them stay in RXQ; with fewer before EOS or a
DEADLINE it ends NOTDETECTED with VER = 0; or the step is a reset. -/
def Obligations.ProbeAccumulatesTheDeliveries : Prop :=
  ∀ (a : Nat) (stream : List Byte) (s t : State) (j : Job), FillAt .probe a 8 stream s j → s.ver = 0 → step s = .next t →
    (∃ j', FillAt .probe a 8 (stream ++ s.delivered) t j' ∧ t.ver = 0 ∧ (j'.i = j.i ∨ j'.i = j.i + 1)) ∨
    (EngineNext s ∧ t.job = none ∧ 8 ≤ stream.length ∧ t.readSlice a 8 = .ok (stream.take 8) ∧
      t.rxq = stream.drop 8 ∧ t.rxCnt = 8 ∧
      t.status = { doneStatus 0x20 .ok with
        cls := if stream.take 4 = [0x50, 0x00, 0x49, 0x00] then .detected else .notDetected } ∧
      t.ver = if stream.take 4 = [0x50, 0x00, 0x49, 0x00]
        then (stream.getD 4 0).setWidth 16 ||| ((stream.getD 5 0).setWidth 16 <<< 8) else 0) ∨
    (EngineNext s ∧ s.rxEos = true ∧ t.job = none ∧ stream.length < 8 ∧ t.readSlice a stream.length = .ok stream ∧
      t.rxq = [] ∧ t.rxCnt = BitVec.ofNat 32 stream.length ∧ t.ver = 0 ∧
      t.status = { doneStatus 0x20 .closed with cls := .notDetected }) ∨
    (CmdNext 0x000000FF s ∧ t.job = none ∧ t.rxq = s.rxq ∧ t.rxCnt = s.rxCnt ∧ t.buf = s.buf ∧ t.ver = 0 ∧
      t.status = { doneStatus 0x20 .timedOut with cls := .notDetected }) ∨
    (∃ rest, s.agenda = .reset :: rest)

/-- R214: two instances that are idle with room for a header, and otherwise in any states, and whose identical streams
(RXQ and RXEOS) are already waiting whole, with no other agent's step to come (empty agenda: no later delivery, no
DEADLINE), have after nine turns of the engine (a PROBE takes at most eight) the same STATUS, classification included,
version, count and rest of the stream. Under every interleaving ProbeAccumulatesTheDeliveries gives the result from the
stream alone. -/
def Obligations.ProbeDependsOnlyOnTheStream : Prop :=
  ∀ (s1 s2 u1 u2 t1 t2 : State), s1.job = none → s2.job = none → s1.agenda = [] → s2.agenda = [] →
    s1.rxq = s2.rxq → s1.rxEos = s2.rxEos →
    s1.addr.toNat + 8 ≤ s1.cfg.bufBytes → s2.addr.toNat + 8 ≤ s2.cfg.bufBytes →
    exec .probe s1 = .next u1 → exec .probe s2 = .next u2 →
    Host.Core.run core 9 u1 = .next t1 → Host.Core.run core 9 u2 = .next t2 →
      t1.status = t2.status ∧ t1.ver = t2.ver ∧ t1.rxCnt = t2.rxCnt ∧ t1.rxq = t2.rxq

/-! ## Host accesses (20_memory.md) -/

/-- R62, R63, R65: an access that is not legal by its offset and size raises BusError and changes nothing, busy or not. -/
def Obligations.IllegalAccessesRaiseBusError : Prop :=
  ∀ (s : State) (off : Word) (tr : Transfer) (rest : List Event), s.agenda = .host off tr :: rest →
    (off.toNat < 0x30 ∧ (tr.size.bytes ≠ 4 ∨ off.toNat % 4 ≠ 0)) ∨
    (0x30 ≤ off.toNat ∧ off.toNat < 0x10000) ∨
    (0x10000 ≤ off.toNat ∧ 0x10000 + s.cfg.bufBytes < off.toNat + tr.size.bytes) ∨
    (0x10000 ≤ off.toNat ∧ off.toNat % tr.size.bytes ≠ 0) →
      step s = .next { s with agenda := rest, resp := some .busError }

/-- R64 (and R20's offsets): a word write to a read-only register completes OKAY and changes nothing; a word read of CMD
gives 0, of any other register its value: STATUS, ADDR, LEN, CRC, CRCOUT = ~CRC, CLAIM, DLEN and VER with bits [31:16]
0, RXCNT, TXCNT, MAGIC = 0x00490050. R27, R28, R29, R32: while idle a word write of ADDR, LEN, CRC or CLAIM stores every
bit. -/
def Obligations.RegisterAccessesAtTheirOffsets : Prop :=
  (∀ (s : State) (off v : Word) (rest : List Event), s.agenda = .host off (.write (.word v)) :: rest →
    off ∈ readOnlyOffsets →
      step s = .next { s with agenda := rest, resp := some .okay }) ∧
  (∀ (s : State) (off v : Word) (rest : List Event), s.agenda = .host off (.read .word) :: rest →
    (off, v) ∈ s.wordReads →
      step s = .next { s with agenda := rest, resp := some (.data (.word v)) }) ∧
  (∀ (s : State) (off v : Word) (rest : List Event), s.job = none → s.agenda = .host off (.write (.word v)) :: rest →
    (off = 0x08 → step s = .next { s with agenda := rest, resp := some .okay, addr := v }) ∧
    (off = 0x0C → step s = .next { s with agenda := rest, resp := some .okay, len := v }) ∧
    (off = 0x10 → step s = .next { s with agenda := rest, resp := some .okay, crc := v }) ∧
    (off = 0x18 → step s = .next { s with agenda := rest, resp := some .okay, claim := v }))

/-- R22, R23: the fields of what a read of STATUS gives; the reserved bits read 0. -/
def Obligations.StatusWordLayout : Prop :=
  ∀ s : State,
    (s.statusWord.getLsbD 0 = true ↔ s.job ≠ none) ∧ s.statusWord.getLsbD 1 = s.status.done ∧
    s.statusWord.extractLsb' 2 2 = (match s.status.cls with | .none => 0#2 | .detected => 1#2 | .notDetected => 2#2) ∧
    s.statusWord.extractLsb' 4 4 = (match s.status.result with
      | .ok => 0#4 | .timedOut => 1#4 | .closed => 2#4 | .truncatedHeader => 3#4 | .payloadTooLarge => 4#4
      | .range => 5#4 | .illegal => 6#4) ∧
    s.statusWord.getLsbD 8 = s.status.matched ∧ s.statusWord.extractLsb' 9 7 = 0#7 ∧
    s.statusWord.extractLsb' 16 8 = s.status.op ∧ s.statusWord.extractLsb' 24 8 = 0#8

/-- R65: the BUF window is little-endian. A legal write while idle sets its n bytes to byte_k of the value and no other
byte; a legal read of n defined bytes returns the value they make; a misaligned access changes nothing. R66: a legal
read of n bytes of which any is UNDEF faults. -/
def Obligations.BufWindowIsLittleEndian : Prop :=
  (∀ (s : State) (off : Word) (tr : Transfer) (rest : List Event), s.agenda = .host off tr :: rest →
    0x10000 ≤ off.toNat → off.toNat % tr.size.bytes ≠ 0 →
      step s = .next { s with agenda := rest, resp := some .busError }) ∧
  (∀ (s : State) (off : Word) (d : Datum) (a : Nat) (rest : List Event), s.job = none →
    s.agenda = .host off (.write d) :: rest → off.toNat = 0x10000 + a → off.toNat % d.size.bytes = 0 →
    a + d.size.bytes ≤ s.cfg.bufBytes →
      ∃ t, step s = .next t ∧ t = { s with agenda := rest, resp := some .okay, buf := t.buf } ∧
        (∀ k, k < d.size.bytes → t.buf.read (a + k) = some ((d.toWord >>> (8 * k)).setWidth 8)) ∧
        (∀ x, x < a ∨ a + d.size.bytes ≤ x → t.buf.read x = s.buf.read x)) ∧
  (∀ (s : State) (off : Word) (n : Size) (a : Nat) (b : Nat → Byte) (rest : List Event), s.job = none →
    s.agenda = .host off (.read n) :: rest → off.toNat = 0x10000 + a → off.toNat % n.bytes = 0 →
    a + n.bytes ≤ s.cfg.bufBytes → (∀ k, k < n.bytes → s.buf.read (a + k) = some (b k)) →
      ∃ d, step s = .next { s with agenda := rest, resp := some (.data d) } ∧ d.size = n ∧
        d.toWord.toNat = ((List.range n.bytes).map fun k => (b k).toNat * 2 ^ (8 * k)).sum) ∧
  (∀ (s : State) (off : Word) (n : Size) (a k : Nat) (rest : List Event), s.job = none →
    s.agenda = .host off (.read n) :: rest → off.toNat = 0x10000 + a → off.toNat % n.bytes = 0 →
    a + n.bytes ≤ s.cfg.bufBytes → k < n.bytes → s.buf.read (a + k) = none →
      ∃ x, step s = .fault (.undefByte x) ∧ a ≤ x ∧ x ≤ a + k ∧ s.buf.read x = none)

/-- R67: the accesses while busy, row by row; the last clause says that every register has a row of the reads. -/
def Obligations.AccessesWhileBusy : Prop :=
  ∀ (s : State) (j : Job) (off : Word) (tr : Transfer) (rest : List Event), s.job = some j →
    s.agenda = .host off tr :: rest →
      (0x10000 ≤ off.toNat → step s = .next { s with agenda := rest, resp := some .busError }) ∧
      (∀ v : Word, tr = .write (.word v) → off ∈ [0x08#32, 0x0C#32, 0x10#32, 0x18#32] →
        step s = .next { s with agenda := rest, resp := some .busError }) ∧
      (tr = .write (.word 0x000000FF) → off = 0x00 →
        step s = exec .deadline { s with agenda := rest } ∧ ∃ t, step s = .next t ∧ t.resp = some .okay) ∧
      (∀ v : Word, tr = .write (.word v) → off = 0x00 → v ≠ 0x000000FF →
        step s = .next { s with agenda := rest, resp := some .busError }) ∧
      (∀ v : Word, tr = .write (.word v) → off ∈ readOnlyOffsets →
        step s = .next { s with agenda := rest, resp := some .okay }) ∧
      (∀ v : Word, tr = .read .word → (off, v) ∈ s.wordReads →
        step s = .next { s with agenda := rest, resp := some (.data (.word v)) }) ∧
      (off.toNat < 0x30 → off.toNat % 4 = 0 → ∃ v, (off, v) ∈ s.wordReads)

/-- R71: no read has a side effect: a host read that answers changes only the response, and read again it answers the
same. -/
def Obligations.ReadsHaveNoSideEffect : Prop :=
  ∀ (s t : State) (off : Word) (n : Size) (rest : List Event),
    s.agenda = .host off (.read n) :: .host off (.read n) :: rest → step s = .next t →
      ∃ r, t = { s with agenda := .host off (.read n) :: rest, resp := some r } ∧
        step t = .next { s with agenda := rest, resp := some r }

/-! ## What each kind of step leaves unchanged -/

/-- R29, R33 to R35, R44 and every start rule: what a CMD write of a command leaves unchanged. No command's start rule
or DEADLINE changes ADDR, LEN, CLAIM, BUF, RXEOS, TXOUT, TXREADY, the parameters or the agenda; each other register only
where its rules name the command. -/
def Obligations.CommandWritesLeaveTheRestUnchanged : Prop :=
  ∀ (i : Instr) (s t : State), exec i s = .next t →
    t.addr = s.addr ∧ t.len = s.len ∧ t.claim = s.claim ∧ t.rxEos = s.rxEos ∧ t.txOut = s.txOut ∧
    t.txReady = s.txReady ∧ t.cfg = s.cfg ∧ t.agenda = s.agenda ∧ (∀ x, t.buf.read x = s.buf.read x) ∧
    (i ≠ .rxFlush → t.rxq = s.rxq) ∧ (i ≠ .declen → t.dlen = s.dlen) ∧ (i ≠ .probe → t.ver = s.ver) ∧
    (i ∉ [Instr.probe, .rxHdr, .rxBody, .rxRaw, .rxFlush] → t.rxCnt = s.rxCnt) ∧
    ((∀ c, i ≠ .encode c) → t.txCnt = s.txCnt) ∧
    ((∀ b, i ≠ .crcByte b) → (∀ c, i ≠ .encode c) → i ∉ [Instr.crcInit, .crcCalc, .crcCheck, .rxBody] →
      t.crc = s.crc) ∧
    (s.job ≠ none → i ≠ .deadline → t.status = s.status ∧ t.job = s.job)

/-- R104, R160, R161, R168, R29, R31 to R35, R42: what one engine step leaves unchanged: ADDR, LEN, RXEOS, TXREADY, the
parameters, the agenda and the response always; one RX byte at most leaves RXQ, at most one byte joins TXOUT, and only
with TXREADY; every byte of BUF but the one an RX byte rule stores at J.a + J.i; CLAIM, DLEN, VER, CRC and the counters
only for the jobs their rules name; STATUS only by finishing. -/
def Obligations.EngineStepMovesOneByte : Prop :=
  ∀ (s t : State) (j : Job), s.job = some j → engineStep s = .next t →
    t.addr = s.addr ∧ t.len = s.len ∧ t.rxEos = s.rxEos ∧ t.txReady = s.txReady ∧ t.cfg = s.cfg ∧
    t.agenda = s.agenda ∧ t.resp = s.resp ∧
    (t.rxq = s.rxq ∨ (j.op.isRx = true ∧ ∃ b, s.rxq = b :: t.rxq ∧ t.rxCnt = s.rxCnt + 1)) ∧
    (t.rxq = s.rxq → t.rxCnt = s.rxCnt) ∧
    ((t.txOut = s.txOut ∧ t.txCnt = s.txCnt) ∨
      (j.op = .encode ∧ s.txReady = true ∧ ∃ b, t.txOut = s.txOut ++ [b] ∧ t.txCnt = s.txCnt + 1)) ∧
    (∀ x, (j.op ∈ [JobOp.probe, .rxRaw] ∨ (j.op = .rxBody ∧ j.i.toNat < j.n.toNat - 4)) ∧
        x = j.a.toNat + j.i.toNat ∨ t.buf.read x = s.buf.read x) ∧
    (j.op ≠ .rxBody → t.claim = s.claim) ∧ (j.op ≠ .rxHdr → t.dlen = s.dlen) ∧ (j.op ≠ .probe → t.ver = s.ver) ∧
    (j.op ∈ [JobOp.probe, .rxHdr, .rxRaw] → t.crc = s.crc) ∧ t.status.op = s.status.op ∧
    (t.job ≠ none → t.status = s.status ∧ t.claim = s.claim ∧ t.dlen = s.dlen ∧ t.ver = s.ver) ∧
    (∀ j', t.job = some j' → j'.op = j.op ∧ j'.a = j.a ∧ j'.n = j.n ∧ j'.c = j.c ∧ (j'.i = j.i ∨ j'.i = j.i + 1))

/-- R29, R131: CRC changes only by a host write of CRC, a reset, a command that R131 lists, or the engine step of one. -/
def Obligations.OnlyTheNamedWritersChangeCrc : Prop :=
  ∀ s t : State, step s = .next t → t.crc ≠ s.crc →
    (∃ rest, s.agenda = .reset :: rest) ∨
    (∃ e rest, s.agenda = e :: rest ∧ s.job = none ∧ ∃ off tr, (e = .host off tr ∨
        ∃ addr, e = .hostAt addr tr ∧ addr = s.cfg.base + off.toNat) ∧ ∃ w, tr = .write (.word w) ∧
      (off = 0x10 ∨ (off = 0x00 ∧ t.status.op ∈ [0x01#8, 0x02#8, 0x04#8, 0x05#8, 0x10#8, 0x22#8]))) ∨
    (EngineNext s ∧ ∃ j, s.job = some j ∧ j.op ∈ [JobOp.crcBuf, .crcCalc, .crcCheck, .encode, .rxBody])

/-- R40, R41, R42, R218: the links' own steps: an append puts its byte at the end of RXQ while RXEOS = 0, and no byte
comes after; end-of-stream sets RXEOS; the TX link sets or clears TXREADY. Nothing else changes. -/
def Obligations.LinkStepsChangeOnlyTheirPort : Prop :=
  (∀ (s : State) (b : Byte) (rest : List Event), s.agenda = .rxByte b :: rest → s.rxEos = false →
    step s = .next { s with agenda := rest, rxq := s.rxq ++ [b] }) ∧
  (∀ (s t : State) (b : Byte) (rest : List Event), s.agenda = .rxByte b :: rest → s.rxEos = true → step s = .next t →
    t.rxq = s.rxq ∧ t.rxEos = true) ∧
  (∀ (s : State) (rest : List Event), s.agenda = .rxEnd :: rest → step s = .next { s with agenda := rest, rxEos := true }) ∧
  (∀ (s : State) (v : Bool) (rest : List Event), s.agenda = .txReady v :: rest →
    step s = .next { s with agenda := rest, txReady := v })

/-- R40, R168: a step changes RXQ only by appending what the link delivers in it, by the engine taking its first byte
for a busy RX command, or by an RXFLUSH while idle emptying it: no byte is reordered, and none is lost but those. -/
def Obligations.RxQueueKeepsItsOrder : Prop :=
  ∀ s t : State, step s = .next t →
    t.rxq = s.rxq ++ s.delivered ∨
    (EngineNext s ∧ ∃ b j, s.job = some j ∧ j.op.isRx = true ∧ s.rxq = b :: t.rxq) ∨
    (CmdNext 0x00000023 s ∧ s.job = none ∧ t.rxq = [] ∧ t.status = doneStatus 0x23 .ok ∧
      t.rxCnt = BitVec.ofNat 32 s.rxq.length)

/-- R41: end-of-stream is final and ordered after the data: no step clears RXEOS or appends after it, a waiting byte is
seen before EOS, and an RX command that needs a byte facing EOS finishes CLOSED and takes nothing. -/
def Obligations.EndOfStreamIsFinalAndLast : Prop :=
  (∀ s t : State, step s = .next t → s.rxEos = true → t.rxEos = true ∧ t.rxq <:+ s.rxq) ∧
  (∀ (s : State) (b : Byte) (q : List Byte), s.rxq = b :: q → s.rxHead = .byte b) ∧
  (∀ (s : State) (j : Job), s.job = some j → j.op.isRx = true → s.rxHead = .eos →
    ∃ t, engineStep s = .next t ∧ t.job = none ∧ t.status.done = true ∧ t.status.result = .closed ∧ t.rxq = s.rxq ∧
      t.rxCnt = s.rxCnt)

/-- R42: TXOUT changes only when the engine, in a step of its own where TXREADY = 1, hands a byte of an ENCODE over; reset
changes neither TXOUT nor TXREADY, which only the TX link changes, to the value it sets. -/
def Obligations.TxOutGrowsOnlyWhenReady : Prop :=
  ∀ s t : State, step s = .next t →
    (t.txOut = s.txOut ∨
      (EngineNext s ∧ s.txReady = true ∧ (∃ j, s.job = some j ∧ j.op = .encode) ∧ ∃ b, t.txOut = s.txOut ++ [b])) ∧
    (t.txReady = s.txReady ∨ ∃ v rest, s.agenda = .txReady v :: rest) ∧
    (∀ v rest, s.agenda = .txReady v :: rest → t.txReady = v ∧ t.txOut = s.txOut)

/-! ## Reset and the invariant -/

/-- R230, R231: reset in one step, idle or busy: every register to its reset value, no job, every BUF byte UNDEF, the
ports unchanged, so bytes not yet taken stay in RXQ and bytes handed over stay in TXOUT. -/
def Obligations.ResetRestoresTheRegisters : Prop :=
  ∀ (s : State) (rest : List Event), s.agenda = .reset :: rest →
    ∃ t, step s = .next t ∧ t.statusWord = 0 ∧ t.addr = 0 ∧ t.len = 0 ∧ t.crc = 0xFFFFFFFF ∧ t.crcOut = 0 ∧
      t.claim = 0 ∧ t.dlen = 0 ∧ t.ver = 0 ∧ t.rxCnt = 0 ∧ t.txCnt = 0 ∧ t.job = none ∧
      (∀ x, t.buf.read x = none) ∧ t.rxq = s.rxq ∧ t.rxEos = s.rxEos ∧ t.txOut = s.txOut ∧ t.txReady = s.txReady ∧
      t.cfg = s.cfg

/-- R230, R235: the state right after reset meets the invariant. -/
def Obligations.ResetStateMeetsTheInvariant : Prop := Inv State.reset

/-- R22 to R26, R31, R35, R36, R105, R201, R204: every step keeps the invariant: BUF canonical and inside BUF_BYTES;
while busy STATUS shows a running command, J.i < J.n, the job inside BUF, its count in RXCNT or TXCNT, its stored bytes
defined and RXHDR's assembly register within the bytes taken (R163); while idle STATUS that of reset or of one finished
command, with a RESULT, CLASS and MATCH that command may give. -/
def Obligations.EveryStepKeepsTheInvariant : Prop :=
  ∀ s t : State, Inv s → step s = .next t → Inv t

/-- R31, R203, R105: in a state that meets the invariant a step always answers, unless it reads an UNDEF byte inside BUF:
no step is refused and none reaches outside BUF. That these answer is the model's choice: a turn of the engine without a
step (log entry 4), an access outside the block (log entry 2), an append after end-of-stream (log entry 12). -/
def Obligations.StepsStopOnlyAtUndefBytes : Prop :=
  ∀ s : State, Inv s →
    (∃ t, step s = .next t) ∨ ∃ a, step s = .fault (.undefByte a) ∧ a < s.cfg.bufBytes ∧ s.buf.read a = none

/-- R8, R39: no step changes BUF_BYTES or BASE. -/
def Obligations.ParametersNeverChange : Prop :=
  ∀ s t : State, step s = .next t → t.cfg = s.cfg
end

