-- ==== Sys2Proof/Laws/Decode.lean ====
section
/-! SUPPORT. The laws of a command word's fields and of the decoder's two stages. -/

namespace Sys2Proof

/-- Taking apart what was put together. -/
theorem unpack_pack (f : CommandWord) : unpack (pack f) = f := by
  obtain ⟨op, imm8, rsv⟩ := f
  simp only [unpack, pack, CommandWord.mk.injEq]
  refine ⟨?_, ?_, ?_⟩ <;> ext k hk <;>
    simp only [BitVec.getElem_extractLsb', BitVec.getLsbD_append]
  · simp [hk]
  · simp [hk, show ¬ (8 + k < 8) by omega]
  · simp [hk, show ¬ (16 + k < 8) by omega, show ¬ (16 + k - 8 < 8) by omega, show 16 + k - 8 - 8 = k by omega]

/-- Putting together what was taken apart. -/
theorem pack_unpack (w : Word) : pack (unpack w) = w := by
  simp only [unpack, pack]
  ext k hk
  simp only [BitVec.getElem_append, BitVec.getElem_extractLsb']
  rw [← BitVec.getLsbD_eq_getElem (x := w) hk]
  by_cases h1 : k < 8
  · simp [h1]
  · by_cases h2 : k - 8 < 8
    · simp [h1, h2, show 8 + (k - 8) = k by omega]
    · simp [h1, h2, show 16 + (k - 8 - 8) = k by omega]

/-- A word with RSV = 0 is decoded by its OP and IMM8 (R84). -/
theorem decode_of_rsvClear {w : Word} (h : (unpack w).rsv = 0) :
    decode w = decodeFields (unpack w).op (unpack w).imm8 := by
  simp [decode, h]

/-- The decoder sees exactly the fields that were put together. -/
theorem decode_pack (op imm8 : Byte) (rsv : Half) :
    decode (pack ⟨op, imm8, rsv⟩) = if rsv = 0 then decodeFields op imm8 else .error .reservedBits := by
  simp [decode, unpack_pack]

/-- A C0 command is decoded exactly when IMM8 = 0 (R81). -/
theorem decodeC0_eq_ok {imm8 : Byte} {i k : Instr} : decodeC0 imm8 i = .ok k ↔ imm8 = 0 ∧ k = i := by
  unfold decodeC0
  split
  · next h => exact ⟨fun e => ⟨h, by injection e with e; exact e.symm⟩, fun e => by rw [e.2]⟩
  · next h => exact ⟨fun e => (by cases e), fun e => absurd e.1 h⟩

/-- An if that equals a value did so by one of its branches. -/
theorem ite_eq_cases {α : Type} {c : Prop} [Decidable c] {a b x : α} (h : (if c then a else b) = x) :
    (c ∧ a = x) ∨ (¬ c ∧ b = x) := by
  by_cases hc : c
  · exact .inl ⟨hc, by simpa [hc] using h⟩
  · exact .inr ⟨hc, by simpa [hc] using h⟩

/-- What is decoded from an OP and an IMM8 has exactly those fields (R84). -/
theorem decodeFields_eq_ok {op imm8 : Byte} {i : Instr} (h : decodeFields op imm8 = .ok i) :
    i.fields = ⟨op, imm8, 0⟩ := by
  unfold decodeFields at h
  rcases ite_eq_cases h with ⟨rfl, h⟩ | ⟨-, h⟩
  · obtain ⟨rfl, rfl⟩ := decodeC0_eq_ok.1 h; rfl
  iterate 13
    rcases ite_eq_cases h with ⟨rfl, h⟩ | ⟨-, h⟩
    · first
      | (obtain ⟨rfl, rfl⟩ := decodeC0_eq_ok.1 h; rfl)
      | (injection h with h; subst h; rfl)
  cases h

/-- The one word that is DEADLINE (R84, R113). -/
theorem decode_eq_deadline {w : Word} (h : decode w = .ok .deadline) : w = 0x000000FF := by
  unfold decode at h
  rcases ite_eq_cases h with ⟨hr, h⟩ | ⟨-, h⟩
  · rw [← pack_unpack w, show unpack w = ⟨(unpack w).op, (unpack w).imm8, 0⟩ by rw [← hr], ← decodeFields_eq_ok h]
    rfl
  · cases h

end Sys2Proof
end

