-- ==== Sys2Proof/Laws/Memory.lean ====
section
/-! SUPPORT. The laws of the buffer's memory: a read after a write, and that every memory operation keeps the canonical
form and the bound. -/

namespace Sys2Proof.Machine

theorem Memory.read_write_same (m : Memory) (a : Nat) (b : Byte) : (m.write a b).read a = some b := by
  induction m with
  | nil => simp [Memory.write, Memory.read]
  | cons c m ih =>
    obtain ⟨k, v⟩ := c
    simp only [Memory.write]
    split
    · simp [Memory.read]
    · split
      · simp [Memory.read]
      · next h => simp [Memory.read, h, ih]

theorem Memory.read_write_other (m : Memory) {a a' : Nat} (b : Byte) (h : a' ≠ a) :
    (m.write a b).read a' = m.read a' := by
  induction m with
  | nil => simp [Memory.write, Memory.read, h]
  | cons c m ih =>
    obtain ⟨k, v⟩ := c
    simp only [Memory.write]
    split
    · simp [Memory.read, h]
    · split
      · next e => subst e; simp [Memory.read, h]
      · by_cases e : a' = k <;> simp [Memory.read, e, ih]

theorem Memory.read_write (m : Memory) (a a' : Nat) (b : Byte) :
    (m.write a b).read a' = if a' = a then some b else m.read a' := by
  split
  · next h => subst h; exact m.read_write_same a' b
  · next h => exact m.read_write_other b h

theorem Memory.mem_write {m : Memory} {a : Nat} {b : Byte} {c : Host.Cell} (h : c ∈ m.write a b) :
    c = (a, b) ∨ c ∈ m := by
  induction m with
  | nil => simpa [Memory.write] using h
  | cons d m ih =>
    obtain ⟨k, v⟩ := d
    simp only [Memory.write] at h
    split at h
    · simpa using h
    · split at h
      · rcases List.mem_cons.1 h with h | h
        · exact .inl h
        · exact .inr (List.mem_cons_of_mem _ h)
      · rcases List.mem_cons.1 h with h | h
        · exact .inr (h ▸ List.mem_cons_self ..)
        · rcases ih h with h | h
          · exact .inl h
          · exact .inr (List.mem_cons_of_mem _ h)

theorem Memory.write_wf {m : Memory} (h : m.wf) (a : Nat) (b : Byte) : (m.write a b).wf := by
  induction m with
  | nil => simp [Memory.write, Memory.wf]
  | cons d m ih =>
    obtain ⟨k, v⟩ := d
    obtain ⟨h1, h2⟩ := List.pairwise_cons.1 h
    simp only [Memory.write]
    split
    · next lt =>
      refine List.pairwise_cons.2 ⟨fun c hc => ?_, h⟩
      rcases List.mem_cons.1 hc with rfl | hc
      · exact lt
      · exact lt.trans (h1 c hc)
    · split
      · next e => subst e; exact List.pairwise_cons.2 ⟨h1, h2⟩
      · next nlt ne =>
        refine List.pairwise_cons.2 ⟨fun c hc => ?_, ih h2⟩
        rcases Memory.mem_write hc with rfl | hc
        · exact lt_of_le_of_ne (not_lt.1 nlt) (fun e => ne e.symm)
        · exact h1 c hc

theorem Memory.write_within {m : Memory} {n a : Nat} (h : m.within n) (ha : a < n) (b : Byte) :
    (m.write a b).within n := by
  intro c hc
  rcases Memory.mem_write hc with rfl | hc
  · exact ha
  · exact h c hc

/-- A listed index reads as a byte, so an index past the bound never does. -/
theorem Memory.read_within {m : Memory} {n a : Nat} {b : Byte} (h : m.within n) (hr : m.read a = some b) : a < n := by
  induction m with
  | nil => simp [Memory.read] at hr
  | cons d m ih =>
    obtain ⟨k, v⟩ := d
    simp only [Memory.read] at hr
    split at hr
    · next e => subst e; exact h (a, v) (List.mem_cons_self ..)
    · exact ih (fun c hc => h c (List.mem_cons_of_mem _ hc)) hr

theorem State.bufRead_eq_ok {s : State} {a : Nat} {b : Byte} :
    s.bufRead a = .ok b ↔ a < s.cfg.bufBytes ∧ s.buf.read a = some b := by
  unfold State.bufRead
  split
  · split <;> simp_all
  · simp_all

theorem State.bufRead_eq_error {s : State} {a : Nat} {f : Fault} :
    s.bufRead a = .error f ↔
      (a < s.cfg.bufBytes ∧ s.buf.read a = none ∧ f = .undefByte a) ∨ (s.cfg.bufBytes ≤ a ∧ f = .outsideBuf a) := by
  unfold State.bufRead
  split
  · next h =>
    split
    · next e => simp [e]; omega
    · next e => simp [e, h, eq_comm (a := f)]
  · next h => simp [h, eq_comm (a := f)]; omega

theorem State.bufWrite_eq_ok {s t : State} {a : Nat} {b : Byte} :
    s.bufWrite a b = .ok t ↔ a < s.cfg.bufBytes ∧ t = { s with buf := s.buf.write a b } := by
  unfold State.bufWrite
  split <;> simp_all [eq_comm]

theorem State.bufWrite_eq_error {s : State} {a : Nat} {b : Byte} {f : Fault} :
    s.bufWrite a b = .error f ↔ s.cfg.bufBytes ≤ a ∧ f = .outsideBuf a := by
  unfold State.bufWrite
  split
  · simp; omega
  · next h => simp [eq_comm (a := f)]; omega

/-- A slice reads exactly when each of its bytes does. -/
theorem State.readSlice_eq_ok {s : State} {n a : Nat} {bs : List Byte} :
    s.readSlice a n = .ok bs ↔ bs.length = n ∧ ∀ k (h : k < bs.length), s.bufRead (a + k) = .ok bs[k] := by
  induction n generalizing a bs with
  | zero =>
    constructor
    · intro h
      obtain rfl : bs = [] := by simpa [State.readSlice, eq_comm] using h
      exact ⟨rfl, fun k h => absurd h (by simp)⟩
    · rintro ⟨h, -⟩
      obtain rfl := List.length_eq_zero_iff.1 h
      rfl
  | succ n ih =>
    constructor
    · intro h
      simp only [State.readSlice] at h
      split at h
      · cases h
      · next b hb =>
        split at h
        · cases h
        · next cs hcs =>
          cases h
          obtain ⟨hl, hk⟩ := ih.1 hcs
          refine ⟨by simp [hl], fun k h => ?_⟩
          match k with
          | 0 => simpa using hb
          | k + 1 => simpa [Nat.add_assoc, Nat.add_comm 1] using hk k (by simpa using h)
    · rintro ⟨hl, hk⟩
      match bs with
      | [] => simp at hl
      | b :: cs =>
        have h0 := hk 0 (by simp)
        have hc : s.readSlice (a + 1) n = .ok cs :=
          ih.2 ⟨by simpa using hl, fun k h => by
            have := hk (k + 1) (by simpa using h)
            rw [show a + 1 + k = a + (k + 1) by omega]
            simpa only [List.getElem_cons_succ] using this⟩
        simp only [Nat.add_zero, List.getElem_cons_zero] at h0
        simp [State.readSlice, h0, hc]

/-- The bytes `bs` placed from index `a` up. -/
def Memory.place (m : Memory) (a : Nat) : List Byte → Memory
  | [] => m
  | b :: bs => Memory.place (m.write a b) (a + 1) bs

theorem State.writeSlice_eq_ok {s t : State} {a : Nat} {bs : List Byte} (h : s.writeSlice a bs = .ok t) :
    t = { s with buf := s.buf.place a bs } ∧ (bs ≠ [] → a + bs.length ≤ s.cfg.bufBytes) := by
  induction bs generalizing s a with
  | nil => cases h; exact ⟨rfl, by simp⟩
  | cons b bs ih =>
    simp only [State.writeSlice] at h
    split at h
    · cases h
    · next u hu =>
      obtain ⟨hlt, rfl⟩ := State.bufWrite_eq_ok.1 hu
      obtain ⟨rfl, hb⟩ := ih h
      refine ⟨rfl, fun _ => ?_⟩
      by_cases e : bs = []
      · subst e; simpa using hlt
      · have := hb e
        simp only [List.length_cons] at this ⊢
        omega

theorem State.writeSlice_of_le {s : State} {a : Nat} {bs : List Byte} (h : a + bs.length ≤ s.cfg.bufBytes) :
    s.writeSlice a bs = .ok { s with buf := s.buf.place a bs } := by
  induction bs generalizing s a with
  | nil => rfl
  | cons b bs ih =>
    simp only [List.length_cons] at h
    have hw : s.bufWrite a b = .ok { s with buf := s.buf.write a b } :=
      State.bufWrite_eq_ok.2 ⟨by omega, rfl⟩
    simp only [State.writeSlice, hw, Memory.place]
    exact ih (s := { s with buf := s.buf.write a b }) (by show a + 1 + bs.length ≤ s.cfg.bufBytes; omega)

theorem Memory.read_place (m : Memory) (a x : Nat) (bs : List Byte) :
    (m.place a bs).read x = if h : a ≤ x ∧ x < a + bs.length then some (bs[x - a]'(by omega)) else m.read x := by
  induction bs generalizing m a with
  | nil =>
    have h : ¬ (a ≤ x ∧ x < a + ([] : List Byte).length) := by simp
    simp [Memory.place]
  | cons b bs ih =>
    simp only [Memory.place, ih, Memory.read_write, List.length_cons]
    by_cases h1 : x = a
    · subst h1; simp
    · by_cases h2 : a + 1 ≤ x ∧ x < a + 1 + bs.length
      · have h3 : a ≤ x ∧ x < a + (bs.length + 1) := by omega
        have e : x - a = (x - (a + 1)) + 1 := by omega
        simp only [h2, h3, dite_true, and_self]
        simp [e]
      · have h3 : ¬ (a ≤ x ∧ x < a + (bs.length + 1)) := by omega
        rw [dif_neg h2, dif_neg h3, if_neg h1]

theorem Memory.place_wf {m : Memory} (h : m.wf) (a : Nat) (bs : List Byte) : (m.place a bs).wf := by
  induction bs generalizing m a with
  | nil => exact h
  | cons b bs ih => exact ih (Memory.write_wf h a b) (a + 1)

theorem Memory.place_within {m : Memory} {n a : Nat} {bs : List Byte} (h : m.within n) (hb : a + bs.length ≤ n) :
    (m.place a bs).within n := by
  induction bs generalizing m a with
  | nil => exact h
  | cons b bs ih =>
    simp only [List.length_cons] at hb
    exact ih (Memory.write_within h (by omega) b) (by omega)

end Sys2Proof.Machine
end

