-- ==== Sys2Proof/Laws/State.lean ====
section
/-! SUPPORT. What each named update of State does to each field: one lemma per field per update, true by rfl, so that no
later proof unfolds a record update. -/

namespace Sys2Proof.Machine

/-! `State.accept` -/

@[simp] theorem State.accept_cfg (s : State) (op : Byte) : (s.accept op).cfg = s.cfg := rfl
@[simp] theorem State.accept_status (s : State) (op : Byte) : (s.accept op).status = ⟨false, .none, .ok, false, op⟩ := rfl
@[simp] theorem State.accept_addr (s : State) (op : Byte) : (s.accept op).addr = s.addr := rfl
@[simp] theorem State.accept_len (s : State) (op : Byte) : (s.accept op).len = s.len := rfl
@[simp] theorem State.accept_crc (s : State) (op : Byte) : (s.accept op).crc = s.crc := rfl
@[simp] theorem State.accept_claim (s : State) (op : Byte) : (s.accept op).claim = s.claim := rfl
@[simp] theorem State.accept_dlen (s : State) (op : Byte) : (s.accept op).dlen = s.dlen := rfl
@[simp] theorem State.accept_ver (s : State) (op : Byte) : (s.accept op).ver = s.ver := rfl
@[simp] theorem State.accept_rxCnt (s : State) (op : Byte) : (s.accept op).rxCnt = s.rxCnt := rfl
@[simp] theorem State.accept_txCnt (s : State) (op : Byte) : (s.accept op).txCnt = s.txCnt := rfl
@[simp] theorem State.accept_buf (s : State) (op : Byte) : (s.accept op).buf = s.buf := rfl
@[simp] theorem State.accept_job (s : State) (op : Byte) : (s.accept op).job = s.job := rfl
@[simp] theorem State.accept_rxq (s : State) (op : Byte) : (s.accept op).rxq = s.rxq := rfl
@[simp] theorem State.accept_rxEos (s : State) (op : Byte) : (s.accept op).rxEos = s.rxEos := rfl
@[simp] theorem State.accept_txOut (s : State) (op : Byte) : (s.accept op).txOut = s.txOut := rfl
@[simp] theorem State.accept_txReady (s : State) (op : Byte) : (s.accept op).txReady = s.txReady := rfl
@[simp] theorem State.accept_agenda (s : State) (op : Byte) : (s.accept op).agenda = s.agenda := rfl
@[simp] theorem State.accept_resp (s : State) (op : Byte) : (s.accept op).resp = s.resp := rfl

/-! `State.finish` -/

@[simp] theorem State.finish_cfg (s : State) (code : Result) : (s.finish code).cfg = s.cfg := rfl
@[simp] theorem State.finish_status (s : State) (code : Result) : (s.finish code).status = { s.status with done := true, result := code } := rfl
@[simp] theorem State.finish_addr (s : State) (code : Result) : (s.finish code).addr = s.addr := rfl
@[simp] theorem State.finish_len (s : State) (code : Result) : (s.finish code).len = s.len := rfl
@[simp] theorem State.finish_crc (s : State) (code : Result) : (s.finish code).crc = s.crc := rfl
@[simp] theorem State.finish_claim (s : State) (code : Result) : (s.finish code).claim = s.claim := rfl
@[simp] theorem State.finish_dlen (s : State) (code : Result) : (s.finish code).dlen = s.dlen := rfl
@[simp] theorem State.finish_ver (s : State) (code : Result) : (s.finish code).ver = s.ver := rfl
@[simp] theorem State.finish_rxCnt (s : State) (code : Result) : (s.finish code).rxCnt = s.rxCnt := rfl
@[simp] theorem State.finish_txCnt (s : State) (code : Result) : (s.finish code).txCnt = s.txCnt := rfl
@[simp] theorem State.finish_buf (s : State) (code : Result) : (s.finish code).buf = s.buf := rfl
@[simp] theorem State.finish_job (s : State) (code : Result) : (s.finish code).job = none := rfl
@[simp] theorem State.finish_rxq (s : State) (code : Result) : (s.finish code).rxq = s.rxq := rfl
@[simp] theorem State.finish_rxEos (s : State) (code : Result) : (s.finish code).rxEos = s.rxEos := rfl
@[simp] theorem State.finish_txOut (s : State) (code : Result) : (s.finish code).txOut = s.txOut := rfl
@[simp] theorem State.finish_txReady (s : State) (code : Result) : (s.finish code).txReady = s.txReady := rfl
@[simp] theorem State.finish_agenda (s : State) (code : Result) : (s.finish code).agenda = s.agenda := rfl
@[simp] theorem State.finish_resp (s : State) (code : Result) : (s.finish code).resp = s.resp := rfl

/-! `State.setMatch` -/

@[simp] theorem State.setMatch_cfg (s : State) (v : Bool) : (s.setMatch v).cfg = s.cfg := rfl
@[simp] theorem State.setMatch_status (s : State) (v : Bool) : (s.setMatch v).status = { s.status with matched := v } := rfl
@[simp] theorem State.setMatch_addr (s : State) (v : Bool) : (s.setMatch v).addr = s.addr := rfl
@[simp] theorem State.setMatch_len (s : State) (v : Bool) : (s.setMatch v).len = s.len := rfl
@[simp] theorem State.setMatch_crc (s : State) (v : Bool) : (s.setMatch v).crc = s.crc := rfl
@[simp] theorem State.setMatch_claim (s : State) (v : Bool) : (s.setMatch v).claim = s.claim := rfl
@[simp] theorem State.setMatch_dlen (s : State) (v : Bool) : (s.setMatch v).dlen = s.dlen := rfl
@[simp] theorem State.setMatch_ver (s : State) (v : Bool) : (s.setMatch v).ver = s.ver := rfl
@[simp] theorem State.setMatch_rxCnt (s : State) (v : Bool) : (s.setMatch v).rxCnt = s.rxCnt := rfl
@[simp] theorem State.setMatch_txCnt (s : State) (v : Bool) : (s.setMatch v).txCnt = s.txCnt := rfl
@[simp] theorem State.setMatch_buf (s : State) (v : Bool) : (s.setMatch v).buf = s.buf := rfl
@[simp] theorem State.setMatch_job (s : State) (v : Bool) : (s.setMatch v).job = s.job := rfl
@[simp] theorem State.setMatch_rxq (s : State) (v : Bool) : (s.setMatch v).rxq = s.rxq := rfl
@[simp] theorem State.setMatch_rxEos (s : State) (v : Bool) : (s.setMatch v).rxEos = s.rxEos := rfl
@[simp] theorem State.setMatch_txOut (s : State) (v : Bool) : (s.setMatch v).txOut = s.txOut := rfl
@[simp] theorem State.setMatch_txReady (s : State) (v : Bool) : (s.setMatch v).txReady = s.txReady := rfl
@[simp] theorem State.setMatch_agenda (s : State) (v : Bool) : (s.setMatch v).agenda = s.agenda := rfl
@[simp] theorem State.setMatch_resp (s : State) (v : Bool) : (s.setMatch v).resp = s.resp := rfl

/-! `State.setClass` -/

@[simp] theorem State.setClass_cfg (s : State) (c : ProbeClass) : (s.setClass c).cfg = s.cfg := rfl
@[simp] theorem State.setClass_status (s : State) (c : ProbeClass) : (s.setClass c).status = { s.status with cls := c } := rfl
@[simp] theorem State.setClass_addr (s : State) (c : ProbeClass) : (s.setClass c).addr = s.addr := rfl
@[simp] theorem State.setClass_len (s : State) (c : ProbeClass) : (s.setClass c).len = s.len := rfl
@[simp] theorem State.setClass_crc (s : State) (c : ProbeClass) : (s.setClass c).crc = s.crc := rfl
@[simp] theorem State.setClass_claim (s : State) (c : ProbeClass) : (s.setClass c).claim = s.claim := rfl
@[simp] theorem State.setClass_dlen (s : State) (c : ProbeClass) : (s.setClass c).dlen = s.dlen := rfl
@[simp] theorem State.setClass_ver (s : State) (c : ProbeClass) : (s.setClass c).ver = s.ver := rfl
@[simp] theorem State.setClass_rxCnt (s : State) (c : ProbeClass) : (s.setClass c).rxCnt = s.rxCnt := rfl
@[simp] theorem State.setClass_txCnt (s : State) (c : ProbeClass) : (s.setClass c).txCnt = s.txCnt := rfl
@[simp] theorem State.setClass_buf (s : State) (c : ProbeClass) : (s.setClass c).buf = s.buf := rfl
@[simp] theorem State.setClass_job (s : State) (c : ProbeClass) : (s.setClass c).job = s.job := rfl
@[simp] theorem State.setClass_rxq (s : State) (c : ProbeClass) : (s.setClass c).rxq = s.rxq := rfl
@[simp] theorem State.setClass_rxEos (s : State) (c : ProbeClass) : (s.setClass c).rxEos = s.rxEos := rfl
@[simp] theorem State.setClass_txOut (s : State) (c : ProbeClass) : (s.setClass c).txOut = s.txOut := rfl
@[simp] theorem State.setClass_txReady (s : State) (c : ProbeClass) : (s.setClass c).txReady = s.txReady := rfl
@[simp] theorem State.setClass_agenda (s : State) (c : ProbeClass) : (s.setClass c).agenda = s.agenda := rfl
@[simp] theorem State.setClass_resp (s : State) (c : ProbeClass) : (s.setClass c).resp = s.resp := rfl

/-! `State.respond` -/

@[simp] theorem State.respond_cfg (s : State) (r : Response) : (s.respond r).cfg = s.cfg := rfl
@[simp] theorem State.respond_status (s : State) (r : Response) : (s.respond r).status = s.status := rfl
@[simp] theorem State.respond_addr (s : State) (r : Response) : (s.respond r).addr = s.addr := rfl
@[simp] theorem State.respond_len (s : State) (r : Response) : (s.respond r).len = s.len := rfl
@[simp] theorem State.respond_crc (s : State) (r : Response) : (s.respond r).crc = s.crc := rfl
@[simp] theorem State.respond_claim (s : State) (r : Response) : (s.respond r).claim = s.claim := rfl
@[simp] theorem State.respond_dlen (s : State) (r : Response) : (s.respond r).dlen = s.dlen := rfl
@[simp] theorem State.respond_ver (s : State) (r : Response) : (s.respond r).ver = s.ver := rfl
@[simp] theorem State.respond_rxCnt (s : State) (r : Response) : (s.respond r).rxCnt = s.rxCnt := rfl
@[simp] theorem State.respond_txCnt (s : State) (r : Response) : (s.respond r).txCnt = s.txCnt := rfl
@[simp] theorem State.respond_buf (s : State) (r : Response) : (s.respond r).buf = s.buf := rfl
@[simp] theorem State.respond_job (s : State) (r : Response) : (s.respond r).job = s.job := rfl
@[simp] theorem State.respond_rxq (s : State) (r : Response) : (s.respond r).rxq = s.rxq := rfl
@[simp] theorem State.respond_rxEos (s : State) (r : Response) : (s.respond r).rxEos = s.rxEos := rfl
@[simp] theorem State.respond_txOut (s : State) (r : Response) : (s.respond r).txOut = s.txOut := rfl
@[simp] theorem State.respond_txReady (s : State) (r : Response) : (s.respond r).txReady = s.txReady := rfl
@[simp] theorem State.respond_agenda (s : State) (r : Response) : (s.respond r).agenda = s.agenda := rfl
@[simp] theorem State.respond_resp (s : State) (r : Response) : (s.respond r).resp = some r := rfl

/-! `State.busError` -/

@[simp] theorem State.busError_cfg (s : State) : (s.busError).cfg = s.cfg := rfl
@[simp] theorem State.busError_status (s : State) : (s.busError).status = s.status := rfl
@[simp] theorem State.busError_addr (s : State) : (s.busError).addr = s.addr := rfl
@[simp] theorem State.busError_len (s : State) : (s.busError).len = s.len := rfl
@[simp] theorem State.busError_crc (s : State) : (s.busError).crc = s.crc := rfl
@[simp] theorem State.busError_claim (s : State) : (s.busError).claim = s.claim := rfl
@[simp] theorem State.busError_dlen (s : State) : (s.busError).dlen = s.dlen := rfl
@[simp] theorem State.busError_ver (s : State) : (s.busError).ver = s.ver := rfl
@[simp] theorem State.busError_rxCnt (s : State) : (s.busError).rxCnt = s.rxCnt := rfl
@[simp] theorem State.busError_txCnt (s : State) : (s.busError).txCnt = s.txCnt := rfl
@[simp] theorem State.busError_buf (s : State) : (s.busError).buf = s.buf := rfl
@[simp] theorem State.busError_job (s : State) : (s.busError).job = s.job := rfl
@[simp] theorem State.busError_rxq (s : State) : (s.busError).rxq = s.rxq := rfl
@[simp] theorem State.busError_rxEos (s : State) : (s.busError).rxEos = s.rxEos := rfl
@[simp] theorem State.busError_txOut (s : State) : (s.busError).txOut = s.txOut := rfl
@[simp] theorem State.busError_txReady (s : State) : (s.busError).txReady = s.txReady := rfl
@[simp] theorem State.busError_agenda (s : State) : (s.busError).agenda = s.agenda := rfl
@[simp] theorem State.busError_resp (s : State) : (s.busError).resp = some .busError := rfl

/-! `State.start` -/

@[simp] theorem State.start_cfg (s : State) (j : Job) : (s.start j).cfg = s.cfg := rfl
@[simp] theorem State.start_status (s : State) (j : Job) : (s.start j).status = s.status := rfl
@[simp] theorem State.start_addr (s : State) (j : Job) : (s.start j).addr = s.addr := rfl
@[simp] theorem State.start_len (s : State) (j : Job) : (s.start j).len = s.len := rfl
@[simp] theorem State.start_crc (s : State) (j : Job) : (s.start j).crc = s.crc := rfl
@[simp] theorem State.start_claim (s : State) (j : Job) : (s.start j).claim = s.claim := rfl
@[simp] theorem State.start_dlen (s : State) (j : Job) : (s.start j).dlen = s.dlen := rfl
@[simp] theorem State.start_ver (s : State) (j : Job) : (s.start j).ver = s.ver := rfl
@[simp] theorem State.start_rxCnt (s : State) (j : Job) : (s.start j).rxCnt = s.rxCnt := rfl
@[simp] theorem State.start_txCnt (s : State) (j : Job) : (s.start j).txCnt = s.txCnt := rfl
@[simp] theorem State.start_buf (s : State) (j : Job) : (s.start j).buf = s.buf := rfl
@[simp] theorem State.start_job (s : State) (j : Job) : (s.start j).job = some j := rfl
@[simp] theorem State.start_rxq (s : State) (j : Job) : (s.start j).rxq = s.rxq := rfl
@[simp] theorem State.start_rxEos (s : State) (j : Job) : (s.start j).rxEos = s.rxEos := rfl
@[simp] theorem State.start_txOut (s : State) (j : Job) : (s.start j).txOut = s.txOut := rfl
@[simp] theorem State.start_txReady (s : State) (j : Job) : (s.start j).txReady = s.txReady := rfl
@[simp] theorem State.start_agenda (s : State) (j : Job) : (s.start j).agenda = s.agenda := rfl
@[simp] theorem State.start_resp (s : State) (j : Job) : (s.start j).resp = s.resp := rfl

/-! `State.rxTake` -/

@[simp] theorem State.rxTake_cfg (s : State) : (s.rxTake).cfg = s.cfg := rfl
@[simp] theorem State.rxTake_status (s : State) : (s.rxTake).status = s.status := rfl
@[simp] theorem State.rxTake_addr (s : State) : (s.rxTake).addr = s.addr := rfl
@[simp] theorem State.rxTake_len (s : State) : (s.rxTake).len = s.len := rfl
@[simp] theorem State.rxTake_crc (s : State) : (s.rxTake).crc = s.crc := rfl
@[simp] theorem State.rxTake_claim (s : State) : (s.rxTake).claim = s.claim := rfl
@[simp] theorem State.rxTake_dlen (s : State) : (s.rxTake).dlen = s.dlen := rfl
@[simp] theorem State.rxTake_ver (s : State) : (s.rxTake).ver = s.ver := rfl
@[simp] theorem State.rxTake_rxCnt (s : State) : (s.rxTake).rxCnt = s.rxCnt + 1 := rfl
@[simp] theorem State.rxTake_txCnt (s : State) : (s.rxTake).txCnt = s.txCnt := rfl
@[simp] theorem State.rxTake_buf (s : State) : (s.rxTake).buf = s.buf := rfl
@[simp] theorem State.rxTake_job (s : State) : (s.rxTake).job = s.job := rfl
@[simp] theorem State.rxTake_rxq (s : State) : (s.rxTake).rxq = s.rxq.tail := rfl
@[simp] theorem State.rxTake_rxEos (s : State) : (s.rxTake).rxEos = s.rxEos := rfl
@[simp] theorem State.rxTake_txOut (s : State) : (s.rxTake).txOut = s.txOut := rfl
@[simp] theorem State.rxTake_txReady (s : State) : (s.rxTake).txReady = s.txReady := rfl
@[simp] theorem State.rxTake_agenda (s : State) : (s.rxTake).agenda = s.agenda := rfl
@[simp] theorem State.rxTake_resp (s : State) : (s.rxTake).resp = s.resp := rfl

/-! `State.txPut` -/

@[simp] theorem State.txPut_cfg (s : State) (b : Byte) : (s.txPut b).cfg = s.cfg := rfl
@[simp] theorem State.txPut_status (s : State) (b : Byte) : (s.txPut b).status = s.status := rfl
@[simp] theorem State.txPut_addr (s : State) (b : Byte) : (s.txPut b).addr = s.addr := rfl
@[simp] theorem State.txPut_len (s : State) (b : Byte) : (s.txPut b).len = s.len := rfl
@[simp] theorem State.txPut_crc (s : State) (b : Byte) : (s.txPut b).crc = s.crc := rfl
@[simp] theorem State.txPut_claim (s : State) (b : Byte) : (s.txPut b).claim = s.claim := rfl
@[simp] theorem State.txPut_dlen (s : State) (b : Byte) : (s.txPut b).dlen = s.dlen := rfl
@[simp] theorem State.txPut_ver (s : State) (b : Byte) : (s.txPut b).ver = s.ver := rfl
@[simp] theorem State.txPut_rxCnt (s : State) (b : Byte) : (s.txPut b).rxCnt = s.rxCnt := rfl
@[simp] theorem State.txPut_txCnt (s : State) (b : Byte) : (s.txPut b).txCnt = s.txCnt + 1 := rfl
@[simp] theorem State.txPut_buf (s : State) (b : Byte) : (s.txPut b).buf = s.buf := rfl
@[simp] theorem State.txPut_job (s : State) (b : Byte) : (s.txPut b).job = s.job := rfl
@[simp] theorem State.txPut_rxq (s : State) (b : Byte) : (s.txPut b).rxq = s.rxq := rfl
@[simp] theorem State.txPut_rxEos (s : State) (b : Byte) : (s.txPut b).rxEos = s.rxEos := rfl
@[simp] theorem State.txPut_txOut (s : State) (b : Byte) : (s.txPut b).txOut = s.txOut ++ [b] := rfl
@[simp] theorem State.txPut_txReady (s : State) (b : Byte) : (s.txPut b).txReady = s.txReady := rfl
@[simp] theorem State.txPut_agenda (s : State) (b : Byte) : (s.txPut b).agenda = s.agenda := rfl
@[simp] theorem State.txPut_resp (s : State) (b : Byte) : (s.txPut b).resp = s.resp := rfl

/-! `State.crcByte` -/

@[simp] theorem State.crcByte_cfg (s : State) (b : Byte) : (s.crcByte b).cfg = s.cfg := rfl
@[simp] theorem State.crcByte_status (s : State) (b : Byte) : (s.crcByte b).status = s.status := rfl
@[simp] theorem State.crcByte_addr (s : State) (b : Byte) : (s.crcByte b).addr = s.addr := rfl
@[simp] theorem State.crcByte_len (s : State) (b : Byte) : (s.crcByte b).len = s.len := rfl
@[simp] theorem State.crcByte_crc (s : State) (b : Byte) : (s.crcByte b).crc = crcStep s.crc b := rfl
@[simp] theorem State.crcByte_claim (s : State) (b : Byte) : (s.crcByte b).claim = s.claim := rfl
@[simp] theorem State.crcByte_dlen (s : State) (b : Byte) : (s.crcByte b).dlen = s.dlen := rfl
@[simp] theorem State.crcByte_ver (s : State) (b : Byte) : (s.crcByte b).ver = s.ver := rfl
@[simp] theorem State.crcByte_rxCnt (s : State) (b : Byte) : (s.crcByte b).rxCnt = s.rxCnt := rfl
@[simp] theorem State.crcByte_txCnt (s : State) (b : Byte) : (s.crcByte b).txCnt = s.txCnt := rfl
@[simp] theorem State.crcByte_buf (s : State) (b : Byte) : (s.crcByte b).buf = s.buf := rfl
@[simp] theorem State.crcByte_job (s : State) (b : Byte) : (s.crcByte b).job = s.job := rfl
@[simp] theorem State.crcByte_rxq (s : State) (b : Byte) : (s.crcByte b).rxq = s.rxq := rfl
@[simp] theorem State.crcByte_rxEos (s : State) (b : Byte) : (s.crcByte b).rxEos = s.rxEos := rfl
@[simp] theorem State.crcByte_txOut (s : State) (b : Byte) : (s.crcByte b).txOut = s.txOut := rfl
@[simp] theorem State.crcByte_txReady (s : State) (b : Byte) : (s.crcByte b).txReady = s.txReady := rfl
@[simp] theorem State.crcByte_agenda (s : State) (b : Byte) : (s.crcByte b).agenda = s.agenda := rfl
@[simp] theorem State.crcByte_resp (s : State) (b : Byte) : (s.crcByte b).resp = s.resp := rfl

/-! `State.crcRestart` -/

@[simp] theorem State.crcRestart_cfg (s : State) : (s.crcRestart).cfg = s.cfg := rfl
@[simp] theorem State.crcRestart_status (s : State) : (s.crcRestart).status = s.status := rfl
@[simp] theorem State.crcRestart_addr (s : State) : (s.crcRestart).addr = s.addr := rfl
@[simp] theorem State.crcRestart_len (s : State) : (s.crcRestart).len = s.len := rfl
@[simp] theorem State.crcRestart_crc (s : State) : (s.crcRestart).crc = Config.crcInit := rfl
@[simp] theorem State.crcRestart_claim (s : State) : (s.crcRestart).claim = s.claim := rfl
@[simp] theorem State.crcRestart_dlen (s : State) : (s.crcRestart).dlen = s.dlen := rfl
@[simp] theorem State.crcRestart_ver (s : State) : (s.crcRestart).ver = s.ver := rfl
@[simp] theorem State.crcRestart_rxCnt (s : State) : (s.crcRestart).rxCnt = s.rxCnt := rfl
@[simp] theorem State.crcRestart_txCnt (s : State) : (s.crcRestart).txCnt = s.txCnt := rfl
@[simp] theorem State.crcRestart_buf (s : State) : (s.crcRestart).buf = s.buf := rfl
@[simp] theorem State.crcRestart_job (s : State) : (s.crcRestart).job = s.job := rfl
@[simp] theorem State.crcRestart_rxq (s : State) : (s.crcRestart).rxq = s.rxq := rfl
@[simp] theorem State.crcRestart_rxEos (s : State) : (s.crcRestart).rxEos = s.rxEos := rfl
@[simp] theorem State.crcRestart_txOut (s : State) : (s.crcRestart).txOut = s.txOut := rfl
@[simp] theorem State.crcRestart_txReady (s : State) : (s.crcRestart).txReady = s.txReady := rfl
@[simp] theorem State.crcRestart_agenda (s : State) : (s.crcRestart).agenda = s.agenda := rfl
@[simp] theorem State.crcRestart_resp (s : State) : (s.crcRestart).resp = s.resp := rfl

/-! `State.rxRestart` -/

@[simp] theorem State.rxRestart_cfg (s : State) : (s.rxRestart).cfg = s.cfg := rfl
@[simp] theorem State.rxRestart_status (s : State) : (s.rxRestart).status = s.status := rfl
@[simp] theorem State.rxRestart_addr (s : State) : (s.rxRestart).addr = s.addr := rfl
@[simp] theorem State.rxRestart_len (s : State) : (s.rxRestart).len = s.len := rfl
@[simp] theorem State.rxRestart_crc (s : State) : (s.rxRestart).crc = s.crc := rfl
@[simp] theorem State.rxRestart_claim (s : State) : (s.rxRestart).claim = s.claim := rfl
@[simp] theorem State.rxRestart_dlen (s : State) : (s.rxRestart).dlen = s.dlen := rfl
@[simp] theorem State.rxRestart_ver (s : State) : (s.rxRestart).ver = s.ver := rfl
@[simp] theorem State.rxRestart_rxCnt (s : State) : (s.rxRestart).rxCnt = 0 := rfl
@[simp] theorem State.rxRestart_txCnt (s : State) : (s.rxRestart).txCnt = s.txCnt := rfl
@[simp] theorem State.rxRestart_buf (s : State) : (s.rxRestart).buf = s.buf := rfl
@[simp] theorem State.rxRestart_job (s : State) : (s.rxRestart).job = s.job := rfl
@[simp] theorem State.rxRestart_rxq (s : State) : (s.rxRestart).rxq = s.rxq := rfl
@[simp] theorem State.rxRestart_rxEos (s : State) : (s.rxRestart).rxEos = s.rxEos := rfl
@[simp] theorem State.rxRestart_txOut (s : State) : (s.rxRestart).txOut = s.txOut := rfl
@[simp] theorem State.rxRestart_txReady (s : State) : (s.rxRestart).txReady = s.txReady := rfl
@[simp] theorem State.rxRestart_agenda (s : State) : (s.rxRestart).agenda = s.agenda := rfl
@[simp] theorem State.rxRestart_resp (s : State) : (s.rxRestart).resp = s.resp := rfl

/-! `State.matchClaim` -/

@[simp] theorem State.matchClaim_cfg (s : State) : (s.matchClaim).cfg = s.cfg := rfl
@[simp] theorem State.matchClaim_status (s : State) : (s.matchClaim).status = { s.status with matched := s.crcOut == s.claim } := rfl
@[simp] theorem State.matchClaim_addr (s : State) : (s.matchClaim).addr = s.addr := rfl
@[simp] theorem State.matchClaim_len (s : State) : (s.matchClaim).len = s.len := rfl
@[simp] theorem State.matchClaim_crc (s : State) : (s.matchClaim).crc = s.crc := rfl
@[simp] theorem State.matchClaim_claim (s : State) : (s.matchClaim).claim = s.claim := rfl
@[simp] theorem State.matchClaim_dlen (s : State) : (s.matchClaim).dlen = s.dlen := rfl
@[simp] theorem State.matchClaim_ver (s : State) : (s.matchClaim).ver = s.ver := rfl
@[simp] theorem State.matchClaim_rxCnt (s : State) : (s.matchClaim).rxCnt = s.rxCnt := rfl
@[simp] theorem State.matchClaim_txCnt (s : State) : (s.matchClaim).txCnt = s.txCnt := rfl
@[simp] theorem State.matchClaim_buf (s : State) : (s.matchClaim).buf = s.buf := rfl
@[simp] theorem State.matchClaim_job (s : State) : (s.matchClaim).job = s.job := rfl
@[simp] theorem State.matchClaim_rxq (s : State) : (s.matchClaim).rxq = s.rxq := rfl
@[simp] theorem State.matchClaim_rxEos (s : State) : (s.matchClaim).rxEos = s.rxEos := rfl
@[simp] theorem State.matchClaim_txOut (s : State) : (s.matchClaim).txOut = s.txOut := rfl
@[simp] theorem State.matchClaim_txReady (s : State) : (s.matchClaim).txReady = s.txReady := rfl
@[simp] theorem State.matchClaim_agenda (s : State) : (s.matchClaim).agenda = s.agenda := rfl
@[simp] theorem State.matchClaim_resp (s : State) : (s.matchClaim).resp = s.resp := rfl

/-! `State.linkEnd` -/

@[simp] theorem State.linkEnd_cfg (s : State) : (s.linkEnd).cfg = s.cfg := rfl
@[simp] theorem State.linkEnd_status (s : State) : (s.linkEnd).status = s.status := rfl
@[simp] theorem State.linkEnd_addr (s : State) : (s.linkEnd).addr = s.addr := rfl
@[simp] theorem State.linkEnd_len (s : State) : (s.linkEnd).len = s.len := rfl
@[simp] theorem State.linkEnd_crc (s : State) : (s.linkEnd).crc = s.crc := rfl
@[simp] theorem State.linkEnd_claim (s : State) : (s.linkEnd).claim = s.claim := rfl
@[simp] theorem State.linkEnd_dlen (s : State) : (s.linkEnd).dlen = s.dlen := rfl
@[simp] theorem State.linkEnd_ver (s : State) : (s.linkEnd).ver = s.ver := rfl
@[simp] theorem State.linkEnd_rxCnt (s : State) : (s.linkEnd).rxCnt = s.rxCnt := rfl
@[simp] theorem State.linkEnd_txCnt (s : State) : (s.linkEnd).txCnt = s.txCnt := rfl
@[simp] theorem State.linkEnd_buf (s : State) : (s.linkEnd).buf = s.buf := rfl
@[simp] theorem State.linkEnd_job (s : State) : (s.linkEnd).job = s.job := rfl
@[simp] theorem State.linkEnd_rxq (s : State) : (s.linkEnd).rxq = s.rxq := rfl
@[simp] theorem State.linkEnd_rxEos (s : State) : (s.linkEnd).rxEos = true := rfl
@[simp] theorem State.linkEnd_txOut (s : State) : (s.linkEnd).txOut = s.txOut := rfl
@[simp] theorem State.linkEnd_txReady (s : State) : (s.linkEnd).txReady = s.txReady := rfl
@[simp] theorem State.linkEnd_agenda (s : State) : (s.linkEnd).agenda = s.agenda := rfl
@[simp] theorem State.linkEnd_resp (s : State) : (s.linkEnd).resp = s.resp := rfl

/-! `State.linkReady` -/

@[simp] theorem State.linkReady_cfg (s : State) (v : Bool) : (s.linkReady v).cfg = s.cfg := rfl
@[simp] theorem State.linkReady_status (s : State) (v : Bool) : (s.linkReady v).status = s.status := rfl
@[simp] theorem State.linkReady_addr (s : State) (v : Bool) : (s.linkReady v).addr = s.addr := rfl
@[simp] theorem State.linkReady_len (s : State) (v : Bool) : (s.linkReady v).len = s.len := rfl
@[simp] theorem State.linkReady_crc (s : State) (v : Bool) : (s.linkReady v).crc = s.crc := rfl
@[simp] theorem State.linkReady_claim (s : State) (v : Bool) : (s.linkReady v).claim = s.claim := rfl
@[simp] theorem State.linkReady_dlen (s : State) (v : Bool) : (s.linkReady v).dlen = s.dlen := rfl
@[simp] theorem State.linkReady_ver (s : State) (v : Bool) : (s.linkReady v).ver = s.ver := rfl
@[simp] theorem State.linkReady_rxCnt (s : State) (v : Bool) : (s.linkReady v).rxCnt = s.rxCnt := rfl
@[simp] theorem State.linkReady_txCnt (s : State) (v : Bool) : (s.linkReady v).txCnt = s.txCnt := rfl
@[simp] theorem State.linkReady_buf (s : State) (v : Bool) : (s.linkReady v).buf = s.buf := rfl
@[simp] theorem State.linkReady_job (s : State) (v : Bool) : (s.linkReady v).job = s.job := rfl
@[simp] theorem State.linkReady_rxq (s : State) (v : Bool) : (s.linkReady v).rxq = s.rxq := rfl
@[simp] theorem State.linkReady_rxEos (s : State) (v : Bool) : (s.linkReady v).rxEos = s.rxEos := rfl
@[simp] theorem State.linkReady_txOut (s : State) (v : Bool) : (s.linkReady v).txOut = s.txOut := rfl
@[simp] theorem State.linkReady_txReady (s : State) (v : Bool) : (s.linkReady v).txReady = v := rfl
@[simp] theorem State.linkReady_agenda (s : State) (v : Bool) : (s.linkReady v).agenda = s.agenda := rfl
@[simp] theorem State.linkReady_resp (s : State) (v : Bool) : (s.linkReady v).resp = s.resp := rfl

/-! `State.blockReset` -/

@[simp] theorem State.blockReset_cfg (s : State) : (s.blockReset).cfg = s.cfg := rfl
@[simp] theorem State.blockReset_status (s : State) : (s.blockReset).status = .reset := rfl
@[simp] theorem State.blockReset_addr (s : State) : (s.blockReset).addr = 0 := rfl
@[simp] theorem State.blockReset_len (s : State) : (s.blockReset).len = 0 := rfl
@[simp] theorem State.blockReset_crc (s : State) : (s.blockReset).crc = 0xFFFFFFFF := rfl
@[simp] theorem State.blockReset_claim (s : State) : (s.blockReset).claim = 0 := rfl
@[simp] theorem State.blockReset_dlen (s : State) : (s.blockReset).dlen = 0 := rfl
@[simp] theorem State.blockReset_ver (s : State) : (s.blockReset).ver = 0 := rfl
@[simp] theorem State.blockReset_rxCnt (s : State) : (s.blockReset).rxCnt = 0 := rfl
@[simp] theorem State.blockReset_txCnt (s : State) : (s.blockReset).txCnt = 0 := rfl
@[simp] theorem State.blockReset_buf (s : State) : (s.blockReset).buf = [] := rfl
@[simp] theorem State.blockReset_job (s : State) : (s.blockReset).job = none := rfl
@[simp] theorem State.blockReset_rxq (s : State) : (s.blockReset).rxq = s.rxq := rfl
@[simp] theorem State.blockReset_rxEos (s : State) : (s.blockReset).rxEos = s.rxEos := rfl
@[simp] theorem State.blockReset_txOut (s : State) : (s.blockReset).txOut = s.txOut := rfl
@[simp] theorem State.blockReset_txReady (s : State) : (s.blockReset).txReady = s.txReady := rfl
@[simp] theorem State.blockReset_agenda (s : State) : (s.blockReset).agenda = s.agenda := rfl
@[simp] theorem State.blockReset_resp (s : State) : (s.blockReset).resp = s.resp := rfl

/-! `State.linkAppend` changes only RXQ, and only before EOS. -/

@[simp] theorem State.linkAppend_cfg (s : State) (b : Byte) : (s.linkAppend b).cfg = s.cfg := by
  unfold State.linkAppend; split <;> rfl
@[simp] theorem State.linkAppend_status (s : State) (b : Byte) : (s.linkAppend b).status = s.status := by
  unfold State.linkAppend; split <;> rfl
@[simp] theorem State.linkAppend_addr (s : State) (b : Byte) : (s.linkAppend b).addr = s.addr := by
  unfold State.linkAppend; split <;> rfl
@[simp] theorem State.linkAppend_len (s : State) (b : Byte) : (s.linkAppend b).len = s.len := by
  unfold State.linkAppend; split <;> rfl
@[simp] theorem State.linkAppend_crc (s : State) (b : Byte) : (s.linkAppend b).crc = s.crc := by
  unfold State.linkAppend; split <;> rfl
@[simp] theorem State.linkAppend_claim (s : State) (b : Byte) : (s.linkAppend b).claim = s.claim := by
  unfold State.linkAppend; split <;> rfl
@[simp] theorem State.linkAppend_dlen (s : State) (b : Byte) : (s.linkAppend b).dlen = s.dlen := by
  unfold State.linkAppend; split <;> rfl
@[simp] theorem State.linkAppend_ver (s : State) (b : Byte) : (s.linkAppend b).ver = s.ver := by
  unfold State.linkAppend; split <;> rfl
@[simp] theorem State.linkAppend_rxCnt (s : State) (b : Byte) : (s.linkAppend b).rxCnt = s.rxCnt := by
  unfold State.linkAppend; split <;> rfl
@[simp] theorem State.linkAppend_txCnt (s : State) (b : Byte) : (s.linkAppend b).txCnt = s.txCnt := by
  unfold State.linkAppend; split <;> rfl
@[simp] theorem State.linkAppend_buf (s : State) (b : Byte) : (s.linkAppend b).buf = s.buf := by
  unfold State.linkAppend; split <;> rfl
@[simp] theorem State.linkAppend_job (s : State) (b : Byte) : (s.linkAppend b).job = s.job := by
  unfold State.linkAppend; split <;> rfl
@[simp] theorem State.linkAppend_rxEos (s : State) (b : Byte) : (s.linkAppend b).rxEos = s.rxEos := by
  unfold State.linkAppend; split <;> rfl
@[simp] theorem State.linkAppend_txOut (s : State) (b : Byte) : (s.linkAppend b).txOut = s.txOut := by
  unfold State.linkAppend; split <;> rfl
@[simp] theorem State.linkAppend_txReady (s : State) (b : Byte) : (s.linkAppend b).txReady = s.txReady := by
  unfold State.linkAppend; split <;> rfl
@[simp] theorem State.linkAppend_agenda (s : State) (b : Byte) : (s.linkAppend b).agenda = s.agenda := by
  unfold State.linkAppend; split <;> rfl
@[simp] theorem State.linkAppend_resp (s : State) (b : Byte) : (s.linkAppend b).resp = s.resp := by
  unfold State.linkAppend; split <;> rfl

@[simp] theorem State.linkAppend_rxq (s : State) (b : Byte) :
    (s.linkAppend b).rxq = if s.rxEos then s.rxq else s.rxq ++ [b] := by
  unfold State.linkAppend; split <;> rfl

/-! Views that are computed, not stored. -/

theorem State.busy_eq_false {s : State} : s.busy = false ↔ s.job = none := by
  simp [State.busy]

theorem State.busy_eq_true {s : State} : s.busy = true ↔ ∃ j, s.job = some j := by
  simp [State.busy, Option.isSome_iff_exists]

theorem State.inRange_iff {s : State} {a n : Nat} : s.inRange a n = true ↔ a + n ≤ s.cfg.bufBytes := by
  simp [State.inRange]

end Sys2Proof.Machine

theorem Sys2Proof.Config.bufBytes_ge (c : Config) : 8 ≤ c.bufBytes := by
  have := Nat.one_le_two_pow (n := c.bufExp.val)
  unfold Config.bufBytes; omega

theorem Sys2Proof.Config.bufBytes_le (c : Config) : c.bufBytes ≤ 65536 := by
  have := Nat.pow_le_pow_right (n := 2) (by omega) (show c.bufExp.val ≤ 13 by omega)
  unfold Config.bufBytes; omega
end

