-- ==== Sys2Proof/Laws/Engine.lean ====
section
/-! SUPPORT. What an engine step can do, said once: one inversion lemma for each kind of job. -/

namespace Sys2Proof.Machine

/-- RxHead() shows a byte exactly when RXQ has a first one (R40). -/
theorem State.rxHead_eq_byte {s : State} {b : Byte} : s.rxHead = .byte b ↔ ∃ q, s.rxq = b :: q := by
  unfold State.rxHead
  split
  · next c q e => simp [e]
  · next e => split <;> simp [e]

/-- RxHead() shows EOS exactly when RXQ is empty and RXEOS is set (R40, R41). -/
theorem State.rxHead_eq_eos {s : State} : s.rxHead = .eos ↔ s.rxq = [] ∧ s.rxEos = true := by
  unfold State.rxHead
  split
  · next c q e => simp [e]
  · next e => split <;> simp_all

/-- RxHead() shows EMPTY exactly when RXQ is empty and the stream has not ended (R40). -/
theorem State.rxHead_eq_empty {s : State} : s.rxHead = .empty ↔ s.rxq = [] ∧ s.rxEos = false := by
  unfold State.rxHead
  split
  · next c q e => simp [e]
  · next e => split <;> simp_all

/-- A checksum step reads one defined byte of BUF into CRC, and finishes or goes on (R127, R129). -/
theorem checksumStep_eq_next {j : Job} {s t : State} (h : checksumStep j s = .next t) :
    ∃ b, s.bufRead (j.a.toNat + j.i.toNat) = .ok b ∧
      ((j.i + 1 = j.n ∧ j.op = .crcCheck ∧ t = (s.crcByte b).matchClaim.finish .ok) ∨
       (j.i + 1 = j.n ∧ j.op ≠ .crcCheck ∧ t = (s.crcByte b).finish .ok) ∨
       (j.i + 1 ≠ j.n ∧ t = (s.crcByte b).start { j with i := j.i + 1 })) := by
  unfold checksumStep at h
  split at h
  · cases h
  · next b hb =>
    refine ⟨b, hb, ?_⟩
    split at h
    · next e =>
      split at h
      · next o => cases h; exact .inl ⟨e, o, rfl⟩
      · next o => cases h; exact .inr (.inl ⟨e, o, rfl⟩)
    · next e => cases h; exact .inr (.inr ⟨e, rfl⟩)

/-- An ENCODE step waits for TXREADY, or hands one byte over, and finishes or goes on (R143). -/
theorem encodeStep_eq_next {j : Job} {s t : State} (h : encodeStep j s = .next t) :
    (s.txReady = false ∧ t = s) ∨
    (s.txReady = true ∧ ∃ b u, encodeByte j (j.n.toNat - 7) j.i.toNat s = .ok b ∧
      u = (if 2 ≤ j.i.toNat ∧ j.i.toNat < 3 + (j.n.toNat - 7) then s.crcByte b else s).txPut b ∧
      ((j.i + 1 = j.n ∧ t = u.finish .ok) ∨ (j.i + 1 ≠ j.n ∧ t = u.start { j with i := j.i + 1 }))) := by
  unfold encodeStep at h
  split at h
  · next hr =>
    refine .inr ⟨hr, ?_⟩
    dsimp only at h
    split at h
    · cases h
    · next b hb =>
      refine ⟨b, _, hb, rfl, ?_⟩
      split at h
      · next e => cases h; exact .inl ⟨e, rfl⟩
      · next e => cases h; exact .inr ⟨e, rfl⟩
  · next hr => cases h; exact .inl ⟨by simpa using hr, rfl⟩

/-- An RX step waits on EMPTY, closes on EOS, or takes one byte, and completes or goes on (R160). -/
theorem rxStep_eq_next {j : Job} {s t : State} (h : rxStep j s = .next t) :
    (s.rxHead = .empty ∧ t = s) ∨ (s.rxHead = .eos ∧ t = rxClose j s) ∨
    (∃ b j' u, s.rxHead = .byte b ∧ rxByteRule j b s.rxTake = .ok (j', u) ∧
      ((j'.i + 1 = j'.n ∧ rxComplete { j' with i := j'.i + 1 } u = .next t) ∨
       (j'.i + 1 ≠ j'.n ∧ t = u.start { j' with i := j'.i + 1 }))) := by
  unfold rxStep at h
  split at h
  · next e => cases h; exact .inl ⟨e, rfl⟩
  · next e => cases h; exact .inr (.inl ⟨e, rfl⟩)
  · next b e =>
    refine .inr (.inr ?_)
    split at h
    · cases h
    · next j' u hr =>
      refine ⟨b, j', u, e, hr, ?_⟩
      dsimp only at h
      split at h
      · next hn => exact .inl ⟨hn, h⟩
      · next hn => cases h; exact .inr ⟨hn, rfl⟩

/-- Where a byte rule stores a byte in BUF, none when it assembles it (R162, R163, R165, R181). -/
def Job.storeAt (j : Job) : Option Nat :=
  match j.op with
  | .probe | .rxRaw => some (j.a.toNat + j.i.toNat)
  | .rxBody => if j.i.toNat < j.textLen then some (j.a.toNat + j.i.toNat) else none
  | .rxHdr | .crcBuf | .crcCalc | .crcCheck | .encode => none

/-- A byte rule changes nothing but BUF at one index, CRC and the assembly register. -/
theorem rxByteRule_eq_ok {j j' : Job} {b : Byte} {s u : State} (h : rxByteRule j b s = .ok (j', u)) :
    (∃ x, j' = { j with acc := x }) ∧
    ((∃ a, j.storeAt = some a ∧ a < s.cfg.bufBytes ∧ j' = j ∧
        (u = { s with buf := s.buf.write a b } ∨
         (j.op = .rxBody ∧ u = { s with buf := s.buf.write a b, crc := crcStep s.crc b }))) ∨
     (j.storeAt = none ∧ u = s)) := by
  unfold rxByteRule at h
  split at h
  · next o =>
    unfold probeByte at h
    split at h
    · cases h
    · next v hv =>
      obtain ⟨hlt, rfl⟩ := State.bufWrite_eq_ok.1 hv
      cases h
      exact ⟨⟨_, rfl⟩, .inl ⟨_, by simp [Job.storeAt, o], hlt, rfl, .inl rfl⟩⟩
  · next o =>
    cases h
    exact ⟨⟨_, rfl⟩, .inr ⟨by simp [Job.storeAt, o], rfl⟩⟩
  · next o =>
    unfold rxBodyByte at h
    split at h
    · next hlt =>
      split at h
      · cases h
      · next v hv =>
        obtain ⟨hb, rfl⟩ := State.bufWrite_eq_ok.1 hv
        cases h
        exact ⟨⟨_, rfl⟩, .inl ⟨_, by simp [Job.storeAt, o, hlt], hb, rfl, .inr ⟨o, rfl⟩⟩⟩
    · next hge =>
      cases h
      exact ⟨⟨_, rfl⟩, .inr ⟨by simp [Job.storeAt, o, hge], rfl⟩⟩
  · next o =>
    unfold rxRawByte at h
    split at h
    · cases h
    · next v hv =>
      obtain ⟨hlt, rfl⟩ := State.bufWrite_eq_ok.1 hv
      cases h
      exact ⟨⟨_, rfl⟩, .inl ⟨_, by simp [Job.storeAt, o], hlt, rfl, .inl rfl⟩⟩
  all_goals
    next o =>
      cases h
      exact ⟨⟨_, rfl⟩, .inr ⟨by simp [Job.storeAt, o], rfl⟩⟩

/-- A completion rule finishes the command with OK; only CLASS, MATCH, VER, DLEN and CLAIM change beside (R162, R163,
R166, R182). -/
theorem rxComplete_eq_next {j : Job} {s t : State} (h : rxComplete j s = .next t) :
    ∃ v d c m k, t = State.finish { s with
      ver := v
      dlen := d
      claim := c
      status := { s.status with matched := m, cls := k } } .ok := by
  unfold rxComplete at h
  split at h
  · unfold probeComplete at h
    split at h
    · cases h
    · split at h <;> cases h
      · exact ⟨_, s.dlen, s.claim, s.status.matched, .detected, rfl⟩
      · exact ⟨s.ver, s.dlen, s.claim, s.status.matched, .notDetected, rfl⟩
  · cases h; exact ⟨s.ver, _, s.claim, s.status.matched, s.status.cls, rfl⟩
  · cases h; exact ⟨s.ver, s.dlen, _, _, s.status.cls, rfl⟩
  all_goals cases h; exact ⟨s.ver, s.dlen, s.claim, s.status.matched, s.status.cls, rfl⟩

/-- A close rule finishes the command with CLOSED; only CLASS changes beside (R161, R183). -/
theorem rxClose_eq (j : Job) (s : State) :
    ∃ k, rxClose j s = ({ s with status := { s.status with cls := k } } : State).finish .closed := by
  unfold rxClose
  split
  · exact ⟨.notDetected, rfl⟩
  · exact ⟨s.status.cls, rfl⟩

/-- A timeout rule finishes the command with TIMEDOUT; only CLASS changes beside (R161, R183). -/
theorem rxTimeout_eq (j : Job) (s : State) :
    ∃ k, rxTimeout j s = ({ s with status := { s.status with cls := k } } : State).finish .timedOut := by
  unfold rxTimeout
  split
  · exact ⟨.notDetected, rfl⟩
  · exact ⟨s.status.cls, rfl⟩

/-- An engine step is that of the busy command, and none when the machine is idle (R104). -/
theorem engineStep_eq_next {s t : State} (h : engineStep s = .next t) :
    (s.job = none ∧ t = s) ∨
    (∃ j, s.job = some j ∧
      ((j.op ∈ [JobOp.crcBuf, .crcCalc, .crcCheck] ∧ checksumStep j s = .next t) ∨
       (j.op = .encode ∧ encodeStep j s = .next t) ∨ (j.op.isRx = true ∧ rxStep j s = .next t))) := by
  unfold engineStep at h
  split at h
  · next e => cases h; exact .inl ⟨e, rfl⟩
  · next j e =>
    refine .inr ⟨j, e, ?_⟩
    split at h <;> next o => first
      | exact .inl ⟨by simp [o], h⟩
      | exact .inr (.inl ⟨o, h⟩)
      | exact .inr (.inr ⟨by simp [o, JobOp.isRx], h⟩)

end Sys2Proof.Machine
end

