-- ==== Sys2Proof/Laws/Flags.lean ====
section
/-! SUPPORT. What the shared operations of a start rule can do: the busy gate (R100, R101) and the range check (R105). -/

namespace Sys2Proof.Machine

theorem State.whenIdle_of_idle {s : State} (h : s.job = none) (op : Byte) (rule : State → Answer) :
    s.whenIdle op rule = rule ((s.respond .okay).accept op) := by
  simp [State.whenIdle, State.busy, h]

theorem State.whenIdle_of_busy {s : State} {j : Job} (h : s.job = some j) (op : Byte) (rule : State → Answer) :
    s.whenIdle op rule = .next s.busError := by
  simp [State.whenIdle, State.busy, h]

/-- A command that answers was turned away by the busy gate, or its rule answered. -/
theorem State.whenIdle_eq_next {s t : State} {op : Byte} {rule : State → Answer} (h : s.whenIdle op rule = .next t) :
    ((∃ j, s.job = some j) ∧ t = s.busError) ∨ (s.job = none ∧ rule ((s.respond .okay).accept op) = .next t) := by
  cases hj : s.job with
  | none => exact .inr ⟨rfl, by simpa [State.whenIdle_of_idle hj] using h⟩
  | some j =>
    rw [State.whenIdle_of_busy hj] at h
    injection h with h
    exact .inl ⟨⟨j, rfl⟩, h.symm⟩

theorem State.checkRange_of_le {s : State} {a n : Nat} (h : a + n ≤ s.cfg.bufBytes) (rule : State → Answer) :
    s.checkRange a n rule = rule s := by
  simp [State.checkRange, State.inRange, h]

theorem State.checkRange_of_gt {s : State} {a n : Nat} (h : s.cfg.bufBytes < a + n) (rule : State → Answer) :
    s.checkRange a n rule = .next (s.finish .range) := by
  simp [State.checkRange, State.inRange, Nat.not_le.2 h]

/-- A range check that answers ended the command with RANGE, or the rest of the rule answered. -/
theorem State.checkRange_eq_next {s t : State} {a n : Nat} {rule : State → Answer}
    (h : s.checkRange a n rule = .next t) :
    (s.cfg.bufBytes < a + n ∧ t = s.finish .range) ∨ (a + n ≤ s.cfg.bufBytes ∧ rule s = .next t) := by
  rcases Nat.lt_or_ge s.cfg.bufBytes (a + n) with hlt | hle
  · rw [State.checkRange_of_gt hlt] at h
    injection h with h
    exact .inl ⟨hlt, h.symm⟩
  · exact .inr ⟨hle, by simpa [State.checkRange_of_le hle] using h⟩

end Sys2Proof.Machine
end

