-- ==== Sys2Proof/Laws/PerInstr.lean ====
section
/-! SUPPORT. The statements made command by command: each command's word is legal and holds exactly its fields (R80 to
R85). -/

namespace Sys2Proof.Laws.LegalWord

/-- The command's word is legal (R85) and gives back the command's fields (R80, R84). -/
def Statement (i : Instr) : Prop := i.wellFormed = true ∧ unpack (encode i) = i.fields

theorem nop : Statement .nop := ⟨rfl, unpack_pack _⟩
theorem crcInit : Statement .crcInit := ⟨rfl, unpack_pack _⟩
theorem crcByte (imm : Byte) : Statement (.crcByte imm) := ⟨rfl, unpack_pack _⟩
theorem crcBuf : Statement .crcBuf := ⟨rfl, unpack_pack _⟩
theorem crcCalc : Statement .crcCalc := ⟨rfl, unpack_pack _⟩
theorem crcCheck : Statement .crcCheck := ⟨rfl, unpack_pack _⟩
theorem encode (cmd : Byte) : Statement (.encode cmd) := ⟨rfl, unpack_pack _⟩
theorem declen : Statement .declen := ⟨rfl, unpack_pack _⟩
theorem probe : Statement .probe := ⟨rfl, unpack_pack _⟩
theorem rxHdr : Statement .rxHdr := ⟨rfl, unpack_pack _⟩
theorem rxBody : Statement .rxBody := ⟨rfl, unpack_pack _⟩
theorem rxFlush : Statement .rxFlush := ⟨rfl, unpack_pack _⟩
theorem rxRaw : Statement .rxRaw := ⟨rfl, unpack_pack _⟩
theorem deadline : Statement .deadline := ⟨rfl, unpack_pack _⟩

end Sys2Proof.Laws.LegalWord
end

