-- ==== Sys2Proof/Laws/Step.lean ====
section
/-! SUPPORT. What a host access and a step can do, said once. -/

namespace Sys2Proof.Machine

/-- With the agenda empty, the engine steps. -/
theorem step_of_nil {s : State} (h : s.agenda = []) : step s = engineStep s := by
  simp [step, nextAgent, h]

/-- Otherwise the next agent of the agenda acts. -/
theorem step_of_cons {s : State} {e : Event} {rest : List Event} (h : s.agenda = e :: rest) :
    step s = handle e { s with agenda := rest } := by
  simp [step, nextAgent, h]

/-- A word access at offset 0 is CMD's (R20, R62). -/
theorem place_cmd (c : Config) : place c 0 .word = some (.reg .cmd) := rfl

/-- A word access at an address that is not in the register region lands in BUF, or nowhere. -/
theorem place_eq_buf {c : Config} {off a : Nat} {n : Size} (h : place c off n = some (.buf a)) :
    off = Config.bufWindow + a ∧ a + n.bytes ≤ c.bufBytes ∧ off % n.bytes = 0 := by
  unfold place at h
  split at h
  · split at h
    · cases hr : regAt off <;> simp [hr] at h
    · cases h
  · split at h
    · next hc =>
      simp only [Option.some.injEq, Place.buf.injEq] at h
      obtain ⟨h1, h2, h3⟩ := hc
      exact ⟨by omega, by omega, h3⟩
    · cases h

/-- A legal access to a register is an aligned word access (R62). -/
theorem place_eq_reg {c : Config} {off : Nat} {n : Size} {r : Reg} (h : place c off n = some (.reg r)) :
    n = .word ∧ off < Config.regionEnd ∧ regAt off = some r := by
  unfold place at h
  split at h
  · next ho =>
    split at h
    · next hn =>
      cases hr : regAt off with
      | none => simp [hr] at h
      | some q =>
        simp only [hr, Option.map_some, Option.some.injEq, Place.reg.injEq] at h
        exact ⟨hn, ho, by rw [h]⟩
    · cases h
  · split at h <;> cases h

/-- The host's write of a word to CMD presents it to the decoder (R100). -/
theorem hostAccess_cmd (w : Word) (s : State) : hostAccess 0 (.write (.word w)) s = presentWord w s := rfl

/-- The step after the host's write of `w` to CMD is the decoder's (R100). -/
theorem step_cmdWrite {s : State} {w : Word} {rest : List Event}
    (h : s.agenda = .host 0x00 (.write (.word w)) :: rest) : step s = presentWord w { s with agenda := rest } := by
  rw [step_of_cons h]; rfl

/-- What a host access that answers has done: nothing but respond; a register write, a BUF write, a command or an
illegal word, each of which needs an idle machine or is turned away, or is DEADLINE. -/
theorem hostAccess_eq_next {off : Word} {tr : Transfer} {s t : State} (h : hostAccess off tr s = .next t) :
    (∃ r, t = s.respond r) ∨
    (s.job = none ∧ ∃ v, t = ({ s with addr := v } : State).respond .okay ∨
      t = ({ s with len := v } : State).respond .okay ∨
      (off = 0x10 ∧ t = ({ s with crc := v } : State).respond .okay) ∨
      t = ({ s with claim := v } : State).respond .okay) ∨
    (s.job = none ∧ ∃ a bs, a + bs.length ≤ s.cfg.bufBytes ∧
      t = ({ s with buf := s.buf.place a bs } : State).respond .okay) ∨
    (∃ w, off = 0 ∧ tr = .write (.word w) ∧ presentWord w s = .next t) := by
  unfold hostAccess at h
  split at h
  · cases h; exact .inl ⟨_, rfl⟩
  · next a hp =>
    unfold bufAccess at h
    split at h
    · cases h; exact .inl ⟨_, rfl⟩
    · next hb =>
      have hj : s.job = none := State.busy_eq_false.1 (by simpa using hb)
      split at h
      · split at h
        · cases h
        · cases h; exact .inl ⟨_, rfl⟩
      · next d =>
        split at h
        · cases h
        · next u hu =>
          cases h
          obtain ⟨rfl, hle⟩ := State.writeSlice_eq_ok hu
          refine .inr (.inr (.inl ⟨hj, a, d.toBytes, hle ?_, rfl⟩))
          cases d <;> simp [Datum.toBytes, le16Bytes, le32Bytes]
  · next r hp =>
    obtain ⟨hn, ho, hr⟩ := place_eq_reg hp
    split at h
    · cases h; exact .inl ⟨_, rfl⟩
    · next d =>
      have hd : ∃ w, d = .word w := by
        cases d with
        | byte v => simp [Transfer.size, Datum.size] at hn
        | half v => simp [Transfer.size, Datum.size] at hn
        | word v => exact ⟨v, rfl⟩
      obtain ⟨w, rfl⟩ := hd
      cases r with
      | cmd =>
        have h0 : off = 0 := by
          have : off.toNat = 0 := by
            unfold regAt at hr
            split at hr <;> first | assumption | cases hr
          exact BitVec.eq_of_toNat_eq this
        exact .inr (.inr (.inr ⟨w, h0, rfl, h⟩))
      | addr | len | claim =>
        simp only [writeReg, State.writeIdle] at h
        cases hj : s.job with
        | some j => simp [State.busy, hj] at h; exact .inl ⟨_, h.symm⟩
        | none =>
          simp [State.busy, hj] at h
          exact .inr (.inl ⟨rfl, w, by simp [← h, Datum.toWord]⟩)
      | crc =>
        have h0 : off = 0x10 := by
          have : off.toNat = 0x10 := by
            unfold regAt at hr
            split at hr <;> first | assumption | cases hr
          exact BitVec.eq_of_toNat_eq this
        simp only [writeReg, State.writeIdle] at h
        cases hj : s.job with
        | some j => simp [State.busy, hj] at h; exact .inl ⟨_, h.symm⟩
        | none =>
          simp [State.busy, hj] at h
          exact .inr (.inl ⟨rfl, w, by simp [← h, Datum.toWord, h0]⟩)
      | status | crcOut | dlen | ver | rxCnt | txCnt | magic => cases h; exact .inl ⟨_, rfl⟩

/-- While a job is in progress, a host access changes nothing but the response, or is the write of DEADLINE to CMD that ends
an RX command (R67, R101, R113). -/
theorem hostAccess_busy {off : Word} {tr : Transfer} {s t : State} {j : Job} (hj : s.job = some j)
    (h : hostAccess off tr s = .next t) :
    (∃ r, t = s.respond r) ∨
    (off = 0 ∧ tr = .write (.word 0x000000FF) ∧ j.op.isRx = true ∧ t = rxTimeout j (s.respond .okay)) := by
  rcases hostAccess_eq_next h with h | ⟨hn, -⟩ | ⟨hn, -⟩ | ⟨w, h0, hw0, hw⟩
  · exact .inl h
  · simp [hj] at hn
  · simp [hj] at hn
  · unfold presentWord at hw
    split at hw
    · next i hd =>
      cases i
      case deadline =>
        simp only [exec, execDeadline, State.respond_job, hj] at hw
        split at hw <;> cases hw
        · next hr => exact .inr ⟨h0, decode_eq_deadline hd ▸ hw0, hr, rfl⟩
        · exact .inl ⟨_, rfl⟩
      all_goals
        simp only [exec, execNop, execCrcInit, execCrcByte, execCrcBuf, execCrcCalc, execCrcCheck, execEncode,
          execDeclen, execProbe, execRxHdr, execRxBody, execRxFlush, execRxRaw, State.whenIdle_of_busy hj] at hw
        cases hw; exact .inl ⟨_, rfl⟩
    · rw [illegalWord, State.whenIdle_of_busy hj] at hw
      cases hw; exact .inl ⟨_, rfl⟩

/-- The engine's turn is its step, on the agenda with that turn taken. -/
theorem step_of_engineNext {s : State} (h : EngineNext s) : step s = engineStep { s with agenda := s.agenda.tail } := by
  rcases h with h | ⟨rest, h⟩
  · rw [step_of_nil h]; cases s; cases h; rfl
  · rw [step_of_cons h, h]; rfl

/-- In the engine's turn the link appends nothing. -/
theorem delivered_of_engineNext {s : State} (h : EngineNext s) : s.delivered = [] := by
  rcases h with h | ⟨rest, h⟩ <;> simp [State.delivered, h]

/-- What a step that answers has done: an engine step, a host access, an access outside the block, a link's step or a
reset. -/
theorem step_eq_next {s t : State} (h : step s = .next t) :
    (EngineNext s ∧ engineStep { s with agenda := s.agenda.tail } = .next t) ∨
    ∃ e rest, s.agenda = e :: rest ∧
      ((∃ off tr, (e = .host off tr ∨ e = .hostAt (s.cfg.base + off.toNat) tr) ∧
          hostAccess off tr { s with agenda := rest } = .next t) ∨
       (∃ addr tr, e = .hostAt addr tr ∧ t = { s with agenda := rest }) ∨
       (∃ b, e = .rxByte b ∧ t = ({ s with agenda := rest } : State).linkAppend b) ∨
       (e = .rxEnd ∧ t = ({ s with agenda := rest } : State).linkEnd) ∨
       (∃ v, e = .txReady v ∧ t = ({ s with agenda := rest } : State).linkReady v) ∨
       (e = .reset ∧ t = ({ s with agenda := rest } : State).blockReset)) := by
  cases ha : s.agenda with
  | nil => exact .inl ⟨.inl ha, by rw [← h, step_of_engineNext (.inl ha), ha]⟩
  | cons e rest =>
    rw [step_of_cons ha] at h
    cases e with
    | host off tr => exact .inr ⟨_, rest, rfl, .inl ⟨off, tr, .inl rfl, h⟩⟩
    | hostAt addr tr =>
      refine .inr ⟨_, rest, rfl, ?_⟩
      simp only [handle, hostAccessAt] at h
      split at h
      · next hb =>
        refine .inl ⟨_, tr, .inr ?_, h⟩
        rw [BitVec.toNat_ofNat, Nat.mod_eq_of_lt (by omega)]
        congr 1; omega
      · cases h; exact .inr (.inl ⟨addr, tr, rfl, rfl⟩)
    | engine => exact .inl ⟨.inr ⟨rest, ha⟩, h⟩
    | rxByte b => cases h; exact .inr ⟨_, rest, rfl, .inr (.inr (.inl ⟨b, rfl, rfl⟩))⟩
    | rxEnd => cases h; exact .inr ⟨_, rest, rfl, .inr (.inr (.inr (.inl ⟨rfl, rfl⟩)))⟩
    | txReady v => cases h; exact .inr ⟨_, rest, rfl, .inr (.inr (.inr (.inr (.inl ⟨v, rfl, rfl⟩))))⟩
    | reset => cases h; exact .inr ⟨_, rest, rfl, .inr (.inr (.inr (.inr (.inr ⟨rfl, rfl⟩))))⟩

/-- What a step that answers does while the job `j` is in progress: a reset; the engine's step; a link's step or a host
access that leaves the job, the registers and BUF; or the DEADLINE that ends an RX command. -/
theorem step_busy_eq_next {s t : State} {j : Job} (hj : s.job = some j) (h : step s = .next t) :
    (∃ rest, s.agenda = .reset :: rest) ∨
    (EngineNext s ∧ engineStep { s with agenda := s.agenda.tail } = .next t) ∨
    (∃ eos rdy r, t = { s with agenda := s.agenda.tail, rxq := s.rxq ++ s.delivered, rxEos := eos, txReady := rdy,
                               resp := r }) ∨
    (CmdNext 0x000000FF s ∧ j.op.isRx = true ∧
      t = rxTimeout j { s with agenda := s.agenda.tail, resp := some .okay }) := by
  rcases step_eq_next h with h | ⟨e, rest, ha, h⟩
  · exact .inr (.inl h)
  have idle : s.delivered = [] →
      { s with agenda := rest } = { s with agenda := s.agenda.tail, rxq := s.rxq ++ s.delivered } := by
    intro hd; rw [hd, List.append_nil, ha]; rfl
  rcases h with ⟨off, tr, he, h⟩ | ⟨addr, tr, rfl, rfl⟩ | ⟨b, rfl, rfl⟩ | ⟨rfl, rfl⟩ | ⟨v, rfl, rfl⟩ | ⟨rfl, rfl⟩
  · have hd : s.delivered = [] := by rcases he with rfl | rfl <;> simp [State.delivered, ha]
    rcases hostAccess_busy (s := { s with agenda := rest }) hj h with ⟨r, rfl⟩ | ⟨rfl, rfl, hr, rfl⟩
    · exact .inr (.inr (.inl ⟨s.rxEos, s.txReady, some r, by rw [idle hd]; rfl⟩))
    · refine .inr (.inr (.inr ⟨⟨rest, ?_⟩, hr, by rw [ha]; rfl⟩))
      rcases he with rfl | rfl
      · exact .inl ha
      · exact .inr (by simpa using ha)
  · have hd : s.delivered = [] := by simp [State.delivered, ha]
    exact .inr (.inr (.inl ⟨s.rxEos, s.txReady, s.resp, idle hd⟩))
  · refine .inr (.inr (.inl ⟨s.rxEos, s.txReady, s.resp, ?_⟩))
    unfold State.linkAppend State.delivered
    rw [ha]
    cases s.rxEos <;> simp
  · have hd : s.delivered = [] := by simp [State.delivered, ha]
    exact .inr (.inr (.inl ⟨true, s.txReady, s.resp, by rw [State.linkEnd, idle hd]⟩))
  · have hd : s.delivered = [] := by simp [State.delivered, ha]
    exact .inr (.inr (.inl ⟨s.rxEos, v, s.resp, by rw [State.linkReady, idle hd]⟩))
  · exact .inl ⟨rest, ha⟩

end Sys2Proof.Machine
end

