-- ==== Sys2Proof/Tests/Slice0.lean ====
section
/-! SUPPORT. Tests: well-formedness, decoding, one-step tests against 95_test_vectors.md (named in each docstring), and for
each statement with hypotheses a witness that meets them. -/

namespace Sys2Proof.Tests

open Sys2Proof.Machine

/-! ## Helpers -/

/-- The next state, if there is one. -/
def after : Answer → Option State
  | .next s => some s
  | .fault _ => none
  | .refused _ => none

/-- The fault, if there is one. -/
def stopped : Answer → Option Fault
  | .next _ => none
  | .fault f => some f
  | .refused _ => none

/-- STATUS as read after an answer. -/
def statusAfter (a : Answer) : Option Nat := (after a).map fun s => s.statusWord.toNat

/-- A small machine: BUF_BYTES = 8, just reset. -/
def small : State := { State.reset with cfg := ⟨0, 0⟩ }

/-- A small machine whose BUF is `bs` from index 0 up. -/
def holding (bs : List Byte) : State := { small with buf := bs.zipIdx.map fun c => (c.2, c.1) }

/-- A machine with the job `j` in progress. -/
def running (j : Job) (s : State) : State := { s with job := some j, status := busyStatus j.op.code }

/-- "RUSEF" in ASCII. -/
def rusef : List Byte := [0x52, 0x55, 0x53, 0x45, 0x46]

/-- The decoder's answer, as comparable data. -/
def decoded (w : Word) : Option Instr :=
  match decode w with
  | .ok i => some i
  | .error _ => none

/-! ## Well-formedness -/

theorem test_reserved_bits_are_ill_formed :
    (⟨0x00, 0, 1⟩ : CommandWord).rsvClear = false ∧ (⟨0x00, 0, 1⟩ : CommandWord).wellFormed = false := by decide

theorem test_unknown_opcode_is_ill_formed :
    (⟨0x06, 0, 0⟩ : CommandWord).opKnown = false ∧ (⟨0x06, 0, 0⟩ : CommandWord).wellFormed = false := by decide

theorem test_immediate_of_c0_is_ill_formed :
    (⟨0x01, 0x41, 0⟩ : CommandWord).immAllowed = false ∧ (⟨0x01, 0x41, 0⟩ : CommandWord).wellFormed = false := by decide

theorem test_immediate_of_ci_is_well_formed : (⟨0x02, 0x41, 0⟩ : CommandWord).wellFormed = true := by decide

/-! ## Decoding: words written out from R81 and R84 -/

theorem test_decode_control : decoded 0b0000000000000000_00000000_00000000 = some .nop ∧
    decoded 0b0000000000000000_00000000_11111111 = some .deadline := by decide

theorem test_decode_checksum : decoded 0b0000000000000000_00000000_00000001 = some .crcInit ∧
    decoded 0b0000000000000000_01000001_00000010 = some (.crcByte 0x41) ∧
    decoded 0b0000000000000000_00000000_00000011 = some .crcBuf ∧
    decoded 0b0000000000000000_00000000_00000100 = some .crcCalc ∧
    decoded 0b0000000000000000_00000000_00000101 = some .crcCheck := by decide

theorem test_decode_codec : decoded 0b0000000000000000_01010011_00010000 = some (.encode 0x53) ∧
    decoded 0b0000000000000000_00000000_00010001 = some .declen := by decide

theorem test_decode_receive : decoded 0b0000000000000000_00000000_00100001 = some .rxHdr ∧
    decoded 0b0000000000000000_00000000_00100010 = some .rxBody ∧
    decoded 0b0000000000000000_00000000_00100011 = some .rxFlush ∧
    decoded 0b0000000000000000_00000000_00100100 = some .rxRaw := by decide

theorem test_decode_probe : decoded 0b0000000000000000_00000000_00100000 = some .probe := by decide

/-- C-2 to C-5: illegal words. -/
theorem test_decode_rejects : decode 0x00000006 = .error (.unknownOpcode 0x06) ∧
    decode 0x00000100 = .error .immediateNotZero ∧ decode 0x00010000 = .error .reservedBits ∧
    decode 0x00004101 = .error .immediateNotZero := ⟨rfl, rfl, rfl, rfl⟩

/-- Every row of the opcode table, as decodeTableWord reads it. -/
theorem test_decode_table_words :
    [0x00, 0x01, 0x4102, 0x03, 0x04, 0x05, 0x5310, 0x11, 0x20, 0x21, 0x22, 0x23, 0x24, 0xFF].map (decodeTableWord 32) =
      [some .nop, some .crcInit, some (.crcByte 0x41), some .crcBuf, some .crcCalc, some .crcCheck,
       some (.encode 0x53), some .declen, some .probe, some .rxHdr, some .rxBody, some .rxFlush, some .rxRaw,
       some .deadline] := by decide

/-- STATUS after each row's word is the first thing a reset machine with LEN = 0 is given. -/
theorem test_first_step_after_reset :
    [0x00, 0x01, 0x4102, 0x03, 0x04, 0x05, 0x5310, 0x11, 0x20, 0x21, 0x22, 0x23, 0x24, 0xFF].map
      (fun w => statusAfter (step (State.reset.withFetchWord 32 w))) =
      [some 0x00000002, some 0x00010002, some 0x00020002, some 0x00030002, some 0x00040002, some 0x00050102,
       some 0x00100001, some 0x00110032, some 0x00200001, some 0x00210001, some 0x00220001, some 0x00230002,
       some 0x00240002, some 0x00000000] := by decide +kernel

/-! ## One step of each command -/

/-- C-1. -/
theorem test_nop : statusAfter (exec .nop State.reset) = some 0x00000002 := by decide

/-- C-7: refused while busy. -/
theorem test_nop_while_busy :
    (after (exec .nop (running ⟨.rxHdr, 0, 2, 0, 0, 0⟩ small))).map (fun s => (s.resp, s.statusWord)) =
      some (some .busError, 0x00210001) := by decide

/-- K-1. -/
theorem test_crcInit :
    (after (exec .crcInit { State.reset with crc := 0x12345678 })).map (fun s => (s.crc, s.crcOut, s.statusWord)) =
      some (0xFFFFFFFF, 0, 0x00010002) := by decide

/-- K-2. -/
theorem test_crcByte :
    (after (exec (.crcByte 0x41) State.reset)).map (fun s => (s.crc, s.crcOut, s.statusWord)) =
      some (0x2C266174, 0xD3D99E8B, 0x00020002) := by decide +kernel

/-- K-3. -/
theorem test_crcByte_zero : (after (exec (.crcByte 0x00) State.reset)).map (·.crc) = some 0x2DFD1072 := by
  decide +kernel

/-- R127: the start, with ADDR + LEN = BUF_BYTES. -/
theorem test_crcBuf_starts :
    (after (exec .crcBuf { small with addr := 3, len := 5 })).map (fun s => (s.job, s.crc, s.statusWord)) =
      some (some ⟨.crcBuf, 3, 5, 0, 0, 0⟩, 0xFFFFFFFF, 0x00030001) := by decide

/-- K-16, the engine step. -/
theorem test_crcBuf_step :
    (after (engineStep (running ⟨.crcBuf, 0, 1, 0, 0, 0⟩ (holding [0x01])))).map (fun s => (s.crc, s.statusWord)) =
      some (0x5AFA20E4, 0x00030002) := by decide +kernel

/-- K-8. -/
theorem test_crcCalc_empty :
    (after (exec .crcCalc { State.reset with crc := 0xDEADBEEF })).map (fun s => (s.crc, s.statusWord)) =
      some (0xFFFFFFFF, 0x00040002) := by decide

/-- K-9: RANGE leaves CRC. -/
theorem test_crcCalc_range :
    (after (exec .crcCalc { State.reset with addr := 0xFFFF, len := 2, crc := 0xDEADBEEF })).map
      (fun s => (s.crc, s.statusWord)) = some (0xDEADBEEF, 0x00040052) := by decide

/-- K-14, K-15: with LEN = 0 the checksum compared is 0. -/
theorem test_crcCheck_empty : statusAfter (exec .crcCheck State.reset) = some 0x00050102 ∧
    statusAfter (exec .crcCheck { State.reset with claim := 1 }) = some 0x00050002 := by decide

/-- K-12, the last engine step: "RUSE" is in CRC, "F" is to come. -/
theorem test_crcCheck_last_step :
    (after (engineStep { running ⟨.crcCheck, 0, 5, 4, 0, 0⟩ (holding rusef) with
      crc := crcFold 0xFFFFFFFF (rusef.take 4), claim := 0x04695B2A })).map (fun s => (s.crcOut, s.statusWord)) =
      some (0x04695B2A, 0x00050102) := by decide +kernel

/-- E-5, E-6: PAYLOAD_TOO_LARGE, before RANGE, with CRC and TXCNT unchanged. -/
theorem test_encode_too_large :
    (after (exec (.encode 0x41) { State.reset with addr := 0x10000, len := 65535, crc := 7, txCnt := 3 })).map
      (fun s => (s.statusWord, s.crc, s.txCnt)) = some (0x00100042, 7, 3) := by decide

/-- E-1, the engine steps of the command byte and of the last checksum byte. -/
theorem test_encode_steps :
    (after (engineStep (running ⟨.encode, 0, 7, 2, 0x41, 0⟩ small))).map (fun s => (s.txOut, s.crc)) =
      some ([0x41], 0x2C266174) ∧
    (after (engineStep { running ⟨.encode, 0, 7, 6, 0x41, 0⟩ small with crc := 0x2C266174, txCnt := 6 })).map
      (fun s => (s.txOut, s.txCnt, s.statusWord)) = some ([0xD3], 7, 0x00100002) := by decide +kernel

/-- D-2. -/
theorem test_declen :
    (after (exec .declen { holding [0x34, 0x12] with len := 2 })).map (fun s => (s.dlen, s.statusWord)) =
      some (0x1234, 0x00110002) := by decide

/-- D-6: TRUNCATED_HEADER before RANGE. -/
theorem test_declen_truncated :
    statusAfter (exec .declen { State.reset with addr := 0x20000, len := 1 }) = some 0x00110032 := by decide

/-- B-10: RANGE leaves VER and RXCNT, CLASS stays NONE. -/
theorem test_probe_range :
    (after (exec .probe { State.reset with addr := 0xFFF9, ver := 0x102, rxCnt := 8 })).map
      (fun s => (s.statusWord, s.ver, s.rxCnt)) = some (0x00200052, 0x102, 8) := by decide

/-- B-1, the engine step of the eighth byte. -/
theorem test_probe_last_step :
    (after (engineStep { running ⟨.probe, 0, 8, 7, 0, 0⟩ (holding [0x50, 0x00, 0x49, 0x00, 0x02, 0x01, 0xFF]) with
      rxq := [0xFF], rxCnt := 7 })).map (fun s => (s.statusWord, s.ver, s.rxCnt)) =
      some (0x00200006, 0x102, 8) := by decide

/-- X-7, the engine step of the second byte. -/
theorem test_rxHdr_last_step :
    (after (engineStep { running ⟨.rxHdr, 0, 2, 1, 0, 0x34⟩ small with rxq := [0x12, 0x52], rxCnt := 1 })).map
      (fun s => (s.dlen, s.rxCnt, s.rxq, s.statusWord)) = some (0x1234, 2, [0x52], 0x00210002) := by decide

/-- X-8, the close step: DLEN is unchanged. -/
theorem test_rxHdr_close :
    (after (engineStep { running ⟨.rxHdr, 0, 2, 1, 0, 0x05⟩ small with rxEos := true, rxCnt := 1 })).map
      (fun s => (s.statusWord, s.dlen, s.rxCnt)) = some (0x00210022, 0, 1) := by decide

/-- X-17: RANGE leaves CRC and RXCNT. -/
theorem test_rxBody_range :
    (after (exec .rxBody { State.reset with dlen := 2, addr := 0xFFFF, crc := 7, rxCnt := 9 })).map
      (fun s => (s.statusWord, s.crc, s.rxCnt)) = some (0x00220052, 7, 9) := by decide

/-- X-11, the engine step of the ninth byte. -/
theorem test_rxBody_last_step :
    (after (engineStep { running ⟨.rxBody, 0, 9, 8, 0, 0x00695B2A⟩ (holding rusef) with
      rxq := [0x04], rxCnt := 8, dlen := 5, crc := 0xFB96A4D5 })).map
      (fun s => (s.statusWord, s.claim, s.rxCnt)) = some (0x00220102, 0x04695B2A, 9) := by decide

/-- X-18. -/
theorem test_rxFlush :
    (after (exec .rxFlush { State.reset with rxq := [0xAA, 0xBB, 0xCC] })).map
      (fun s => (s.rxCnt, s.rxq, s.statusWord)) = some (3, [], 0x00230002) := by decide

/-- X-5. -/
theorem test_rxRaw_empty : statusAfter (exec .rxRaw { State.reset with rxEos := true }) = some 0x00240002 := by decide

/-- X-4, the engine step of the third byte: later bytes stay in RXQ. -/
theorem test_rxRaw_last_step :
    (after (engineStep { running ⟨.rxRaw, 0, 3, 2, 0, 0⟩ (holding [1, 2]) with rxq := [3, 4, 5], rxCnt := 2 })).map
      (fun s => (s.statusWord, s.rxq, s.buf)) = some (0x00240002, [4, 5], [(0, 1), (1, 2), (2, 3)]) := by decide

/-- C-6. -/
theorem test_deadline_idle :
    (after (exec .deadline { State.reset with status := doneStatus 0x00 .ok })).map (fun s => (s.statusWord, s.resp)) =
      some (0x00000002, some .okay) := by decide

/-- B-7 and K-16: it ends a PROBE, and does nothing to a CRC_BUF. -/
theorem test_deadline_busy :
    statusAfter (exec .deadline (running ⟨.probe, 0, 8, 7, 0, 0⟩ small)) = some 0x0020001A ∧
    statusAfter (exec .deadline (running ⟨.crcBuf, 0, 1, 0, 0, 0⟩ small)) = some 0x00030001 := by decide

/-- C-9, C-10, C-11. -/
theorem test_register_accesses :
    [(0x04, Transfer.read .half), (0x06, .read .word), (0x30, .read .word), (0x2C, .read .word), (0x00, .read .word)].map
      (fun a => (after (hostAccess a.1 a.2 State.reset)).map (·.resp)) =
      [some (some .busError), some (some .busError), some (some .busError),
       some (some (.data (.word 0x00490050))), some (some (.data (.word 0)))] := by decide

/-- C-13 to C-16. -/
theorem test_window_accesses :
    (after (hostAccess 0x10000 (.write (.word 0x34333231)) small)).map (·.buf) =
      some [(0, 0x31), (1, 0x32), (2, 0x33), (3, 0x34)] ∧
    (after (hostAccess 0x10002 (.read .half) (holding [0x31, 0x32, 0x33, 0x34]))).map (·.resp) =
      some (some (.data (.half 0x3433))) ∧
    (after (hostAccess 0x10001 (.read .half) small)).map (·.resp) = some (some .busError) ∧
    (after (hostAccess 0x20000 (.read .byte) State.reset)).map (·.resp) = some (some .busError) ∧
    stopped (hostAccess 0x10000 (.read .byte) State.reset) = some (.undefByte 0) := by decide

/-- C-17: reset while busy. -/
theorem test_reset :
    (after (step { running ⟨.rxRaw, 0, 4, 2, 0, 0⟩ (holding [1, 2]) with
      rxq := [9], rxCnt := 2, crc := 5, agenda := [.reset] })).map
      (fun s => (s.statusWord, s.buf, s.crc, s.rxCnt, s.rxq)) = some (0, [], 0xFFFFFFFF, 0, [9]) := by decide

/-! ## Witnesses: states that meet the hypotheses of the statements -/

/-- An RXRAW of three bytes of which two are taken and the last waits. -/
def rawBusy : State := { running ⟨.rxRaw, 0, 3, 2, 0, 0⟩ (holding [1, 2]) with rxq := [3], rxCnt := 2 }

/-- A CRC_CHECK of "RUSEF" with the last byte to come. -/
def checkBusy : State :=
  { running ⟨.crcCheck, 0, 5, 4, 0, 0⟩ (holding rusef) with crc := crcFold 0xFFFFFFFF (rusef.take 4) }

/-- An ENCODE of the payload 01 02 03 with the first payload byte to come. -/
def encodeBusy : State :=
  { running ⟨.encode, 0, 10, 3, 0x53, 0⟩ (holding [1, 2, 3]) with
    txOut := [0x04, 0x00, 0x53], txCnt := 3, crc := crcFold 0xFFFFFFFF [0x53] }

/-- An RXBODY of one text byte with the last checksum byte to come. -/
def bodyBusy : State :=
  { running ⟨.rxBody, 0, 5, 4, 0, 0⟩ (holding [0x41]) with rxq := [4], rxCnt := 4, dlen := 1 }

/-- An RXHDR that has taken 05 and has 12 waiting. -/
def headerBusy : State := { running ⟨.rxHdr, 0, 2, 1, 0, 5⟩ small with rxq := [0x12], rxCnt := 1 }

/-- A PROBE that has taken seven bytes of a header and has the eighth waiting. -/
def probeBusy : State :=
  { running ⟨.probe, 0, 8, 7, 0, 0⟩ (holding [0x50, 0x00, 0x49, 0x00, 0x02, 0x01, 0xFF]) with rxq := [0xFE], rxCnt := 7 }

/-- The host writes `w` to CMD. -/
def given (w : Word) (s : State) : State := { s with agenda := [cmdWrite w] }

/-- The host makes the access `tr` at offset `off`. -/
def access (off : Word) (tr : Transfer) (s : State) : State := { s with agenda := [.host off tr] }

theorem witness_rawBusy_meets_the_invariant (es : List Event) : Inv { rawBusy with agenda := es } where
  canonical := by show rawBusy.buf.wf; decide
  bounded := by show rawBusy.buf.within rawBusy.cfg.bufBytes; decide
  busyOk j h := by
    cases h
    exact ⟨rfl, by decide, by show (0 : Nat) + 3 ≤ 8; decide, fun _ => rfl, fun h => (by cases h),
      by show ∀ k, k < 2 → (rawBusy.buf.read (0 + k)).isSome = true; decide, fun h => (by cases h)⟩
  idleOk h := by cases h

theorem witness_checkBusy_meets_the_invariant : Inv checkBusy where
  canonical := by decide
  bounded := by decide
  busyOk j h := by
    cases h
    exact ⟨rfl, by decide, by show (0 : Nat) + 5 ≤ 8; decide, fun h => (by cases h), fun h => (by cases h), by decide,
      fun h => (by cases h)⟩
  idleOk h := by cases h

theorem witness_headerBusy_meets_the_invariant : Inv headerBusy where
  canonical := by decide
  bounded := by decide
  busyOk j h := by
    cases h
    exact ⟨rfl, by decide, rfl, fun _ => rfl, fun h => (by cases h), by decide, fun _ => by decide⟩
  idleOk h := by cases h

/-- The invariant holds of a state from which the next step stops, too: the host reads an UNDEF byte. -/
theorem witness_undefined_read_meets_the_invariant :
    Inv (access 0x10007 (.read .byte) small) ∧
    stopped (step (access 0x10007 (.read .byte) small)) = some (.undefByte 7) := by
  refine ⟨⟨by decide, by decide, fun j h => (by cases h), fun _ => ⟨fun _ => rfl, ?_, ?_, ?_, ?_⟩⟩, by decide⟩ <;>
    intro h <;> cases h

theorem witness_EveryStepKeepsTheInvariant : Inv rawBusy ∧ (after (step rawBusy)).isSome = true :=
  ⟨witness_rawBusy_meets_the_invariant [], by decide⟩

theorem witness_StepsStopOnlyAtUndefBytes : Inv rawBusy ∧ Inv (access 0x10007 (.read .byte) small) :=
  ⟨witness_rawBusy_meets_the_invariant [], witness_undefined_read_meets_the_invariant.1⟩

/-- One illegal word of each cause, written while idle and while busy. -/
theorem witness_IllegalWordsFinishIllegal :
    [0x00010000#32, 0x00000006, 0x0000000F, 0x00000012, 0x0000001F, 0x00000025, 0x000000FE, 0x000001FF].map decoded =
      List.replicate 8 none ∧
    decode 0x00010000 = .error .reservedBits ∧ (given 0x00010000 small).agenda = cmdWrite 0x00010000 :: [] ∧
    small.job = none ∧ rawBusy.job ≠ none := ⟨by decide, rfl, rfl, rfl, by decide⟩

theorem witness_StepRunsTheDecodedCommand :
    (given 0x00004102 small).agenda = cmdWrite 0x00004102 :: [] ∧ decode 0x00004102 = .ok (.crcByte 0x41) ∧
    (Instr.crcByte 0x41).wellFormed = true := ⟨rfl, rfl, rfl⟩

/-- The first and the last address of the block, and the two just outside. -/
theorem witness_BaseAddressSelectsTheOffset :
    let s : State := { State.reset with cfg := ⟨13, 0x1000⟩ }
    ({ s with agenda := [.hostAt 0x1000 (.read .word)] } : State).agenda =
      .hostAt (s.cfg.base + (0x00000000 : Word).toNat) (.read .word) :: [] ∧
    ({ s with agenda := [.hostAt 0x100000FFF (.read .byte)] } : State).agenda =
      .hostAt (s.cfg.base + (0xFFFFFFFF : Word).toNat) (.read .byte) :: [] ∧
    0xFFF < s.cfg.base ∧ s.cfg.base + 2 ^ 32 ≤ 0x100001000 := by decide

theorem witness_BusyRefusesEveryWordButDeadline :
    rawBusy.job = some ⟨.rxRaw, 0, 3, 2, 0, 0⟩ ∧ (0x000001FF : Word) ≠ 0x000000FF ∧
    (given 0x000001FF rawBusy).agenda = cmdWrite 0x000001FF :: [] := ⟨rfl, by decide, rfl⟩

/-- A command that finishes at once, one that starts a job, and an illegal word. -/
theorem witness_AcceptanceDescribesTheNewCommand :
    small.job = none ∧ statusAfter (step (given 0x00000000 small)) = some 0x00000002 ∧
    statusAfter (step (given 0x00000021 small)) = some 0x00210001 ∧
    statusAfter (step (given 0x00000006 small)) = some 0x00060062 := ⟨rfl, by decide, by decide, by decide⟩

/-- Every command answers from an idle state, and the range check at its boundary does either. -/
theorem witness_StartTableOfR106 :
    let s : State := { holding [1, 2, 3, 4, 5, 6, 7, 8] with addr := 6, len := 2, dlen := 2 }
    s.job = none ∧
    [Instr.nop, .crcInit, .crcByte 1, .declen, .rxFlush, .deadline, .crcBuf, .crcCalc, .crcCheck, .rxRaw, .encode 1,
      .rxHdr, .rxBody, .probe].map (fun i => (after (exec i s)).map (·.job.isSome)) =
      [some false, some false, some false, some false, some false, some false, some true, some true, some true,
       some true, some true, some true, some true, some false] ∧
    (after (exec .rxRaw { s with len := 3 })).map (·.job.isSome) = some false ∧
    (after (exec .probe { s with addr := 0 })).map (·.job.isSome) = some true ∧
    decoded 0x00000006 = none ∧ statusAfter (presentWord 0x00000006 s) = some 0x00060062 := by decide +kernel

theorem witness_NopFinishesOk : small.job = none ∧ rawBusy.job = some ⟨.rxRaw, 0, 3, 2, 0, 0⟩ := ⟨rfl, rfl⟩

theorem witness_CrcInitRestartsCrc : small.job = none ∧ rawBusy.job = some ⟨.rxRaw, 0, 3, 2, 0, 0⟩ := ⟨rfl, rfl⟩

/-- A busy receive, a busy probe, another busy job, and idle. -/
theorem witness_DeadlineEndsOnlyABusyReceive :
    rawBusy.job = some ⟨.rxRaw, 0, 3, 2, 0, 0⟩ ∧
    (running ⟨.probe, 0, 8, 0, 0, 0⟩ small).job = some ⟨.probe, 0, 8, 0, 0, 0⟩ ∧
    checkBusy.job = some ⟨.crcCheck, 0, 5, 4, 0, 0⟩ ∧ small.job = none := ⟨rfl, rfl, rfl, rfl⟩

/-- X-21a, X-21b, and an RXHDR facing EOS as X-22a, X-22b. -/
theorem witness_DeadlineRaceIsDecidedByTheFirst :
    Inv { rawBusy with agenda := [.engine, cmdWrite 0x000000FF] } ∧
    Inv { rawBusy with agenda := [cmdWrite 0x000000FF, .engine] } ∧
    rawBusy.job = some ⟨.rxRaw, 0, 3, 2, 0, 0⟩ ∧ JobOp.rxRaw.isRx = true ∧ rawBusy.rxq = 3 :: [] ∧ (2 : Word) + 1 = 3 ∧
    (let s : State := { running ⟨.rxHdr, 0, 2, 0, 0, 0⟩ small with rxEos := true, agenda := [.engine, cmdWrite 0xFF] }
     s.job = some ⟨.rxHdr, 0, 2, 0, 0, 0⟩ ∧ JobOp.rxHdr.isRx = true ∧ s.rxq = [] ∧ s.rxEos = true ∧
     s.agenda = .engine :: cmdWrite 0x000000FF :: [] ∧
     ({ s with agenda := [cmdWrite 0xFF, .engine] } : State).agenda = cmdWrite 0x000000FF :: .engine :: []) :=
  ⟨witness_rawBusy_meets_the_invariant _, witness_rawBusy_meets_the_invariant _, rfl, rfl, rfl, rfl, by decide⟩

theorem witness_EngineWaitsWithoutAStep :
    small.job = none ∧
    (let s := running ⟨.rxHdr, 0, 2, 0, 0, 0⟩ small
     s.job = some ⟨.rxHdr, 0, 2, 0, 0, 0⟩ ∧ JobOp.rxHdr.isRx = true ∧ s.rxq = [] ∧ s.rxEos = false) ∧
    (let s : State := { encodeBusy with txReady := false }
     s.job = some ⟨.encode, 0, 10, 3, 0x53, 0⟩ ∧ s.txReady = false) := by decide

/-- Idle and busy; two CRC_BYTE commands after a reset, and after a CRC_INIT. -/
theorem witness_CrcByteStepsCrc :
    small.job = none ∧ checkBusy.job = some ⟨.crcCheck, 0, 5, 4, 0, 0⟩ ∧
    ({ checkBusy with agenda := [.reset, cmdWrite 0x00004102, cmdWrite 0x00004202] } : State).agenda =
      .reset :: ([0x41#8, 0x42#8].map fun b => cmdWrite (encode (.crcByte b))) ++ [] ∧
    ({ small with agenda := [cmdWrite 0x00000001, cmdWrite 0x00004102] } : State).agenda =
      cmdWrite (encode .crcInit) :: ([0x41#8].map fun b => cmdWrite (encode (.crcByte b))) ++ [] := by decide

/-- Idle and busy; the last defined byte; an UNDEF byte; a job the engine runs to its end, up to the end of BUF. -/
theorem witness_CrcBufContinuesTheChecksum :
    small.job = none ∧ checkBusy.job = some ⟨.crcCheck, 0, 5, 4, 0, 0⟩ ∧
    JobOp.crcCheck ∈ [JobOp.crcBuf, .crcCalc, .crcCheck] ∧
    (0 : Word).toNat + (4 : Word).toNat < checkBusy.cfg.bufBytes ∧ checkBusy.buf.read 4 = some 0x46 ∧
    (let s := running ⟨.crcBuf, 7, 1, 0, 0, 0⟩ small
     (7 : Word).toNat + (0 : Word).toNat < s.cfg.bufBytes ∧ s.buf.read 7 = none) ∧
    (let s : State := { holding [1, 2, 3, 4, 5, 6, 7, 8] with addr := 6, len := 2 }
     s.job = none ∧ s.agenda = [] ∧ s.addr.toNat + s.len.toNat ≤ s.cfg.bufBytes) := by decide

theorem witness_readSlice_up_to_the_end :
    ({ holding [1, 2, 3, 4, 5, 6, 7, 8] with addr := 6, len := 2 } : State).readSlice 6 2 = .ok [7, 8] := rfl

theorem witness_CrcCalcComputesTheChecksum :
    checkBusy.job = some ⟨.crcCheck, 0, 5, 4, 0, 0⟩ ∧
    (let s : State := { holding rusef with len := 5 }
     s.job = none ∧ s.agenda = [] ∧ s.addr.toNat + s.len.toNat ≤ s.cfg.bufBytes) ∧
    ({ holding rusef with len := 5 } : State).readSlice 0 5 = .ok rusef := ⟨rfl, by decide, rfl⟩

theorem witness_CrcCheckComparesWithClaim :
    checkBusy.job = some ⟨.crcCheck, 0, 5, 4, 0, 0⟩ ∧
    (let s : State := { holding rusef with len := 5, claim := 0x04695B2A }
     s.job = none ∧ s.agenda = [] ∧ s.addr.toNat + s.len.toNat ≤ s.cfg.bufBytes) ∧
    ({ holding rusef with len := 5, claim := 0x04695B2A } : State).readSlice 0 5 = .ok rusef := ⟨rfl, by decide, rfl⟩

/-- The last byte of a CRC_CHECK, with the engine's turn, and with a reset instead. -/
theorem witness_ChecksumJobSurvivesEveryInterleaving :
    JobOp.crcCheck ∈ [JobOp.crcBuf, .crcCalc, .crcCheck] ∧
    ChecksumAt .crcCheck 0xFFFFFFFF rusef checkBusy ⟨.crcCheck, 0, 5, 4, 0, 0⟩ ∧
    (after (step checkBusy)).isSome = true ∧
    (after (step { checkBusy with agenda := [.reset] })).isSome = true :=
  ⟨by decide, ⟨rfl, rfl, by decide, by decide, rfl, by decide +kernel, rfl⟩, by decide +kernel, by decide⟩

/-- The engine step of each place of a frame: first, second, command, payload (defined and UNDEF), last; the wait. -/
theorem witness_EncodeSendsTheFrame_steps :
    small.job = none ∧ encodeBusy.job = some ⟨.encode, 0, 10, 3, 0x53, 0⟩ ∧ encodeBusy.txReady = true ∧
    (10 : Word).toNat - 7 = 3 ∧
    (0 : Word).toNat + (3 - 3) < encodeBusy.cfg.bufBytes ∧ encodeBusy.buf.read ((0 : Word).toNat + (3 - 3)) = some 1 ∧
    (running ⟨.encode, 0, 10, 0, 0x53, 0⟩ small).job = some ⟨.encode, 0, 10, 0, 0x53, 0⟩ ∧
    byteOf 0 (BitVec.ofNat 32 (3 + 1)) = 0x04 ∧ byteOf 1 (BitVec.ofNat 32 (3 + 1)) = 0x00 ∧
    (running ⟨.encode, 0, 10, 9, 0x53, 0⟩ small).job = some ⟨.encode, 0, 10, 9, 0x53, 0⟩ ∧
    byteOf (9 - 3 - 3) (~~~ 0xADFED9A0#32) = 0x52 ∧
    (let s := running ⟨.encode, 7, 8, 3, 0x53, 0⟩ small
     3 ≤ (3 : Word).toNat ∧ (3 : Word).toNat < 3 + ((8 : Word).toNat - 7) ∧ 7 + (3 - 3) < s.cfg.bufBytes ∧
     s.buf.read 7 = none) ∧
    (let s : State := { encodeBusy with txReady := false }
     s.txReady = false ∧ (after (engineStep s)).isSome = true) := by decide +kernel

theorem witness_EncodeSendsTheFrame_runs :
    (let s : State := { holding [1, 2, 3] with len := 3 }
     s.job = none ∧ s.agenda = [] ∧ s.txReady = true ∧ s.len.toNat ≤ 65534 ∧
     s.addr.toNat + s.len.toNat ≤ s.cfg.bufBytes) ∧
    ({ holding [1, 2, 3] with len := 3 } : State).readSlice 0 3 = .ok [1, 2, 3] := ⟨by decide, rfl⟩

theorem witness_EncodeSendsTheFrameUnderEveryInterleaving :
    EncodeAt 0x53 [1, 2, 3] [] encodeBusy ⟨.encode, 0, 10, 3, 0x53, 0⟩ ∧ (after (step encodeBusy)).isSome = true ∧
    (after (step { encodeBusy with agenda := [.txReady false] })).isSome = true :=
  ⟨⟨rfl, rfl, rfl, rfl, by decide, by decide, rfl, by decide +kernel, rfl, by decide +kernel, rfl⟩, by decide +kernel,
   by decide⟩

/-- LEN at 65534 and at 65535. -/
theorem witness_PayloadTooLargeExactlyAbove65534 :
    statusAfter (exec (.encode 0x41) { State.reset with len := 65534 }) = some 0x00100001 ∧
    statusAfter (exec (.encode 0x41) { State.reset with len := 65535 }) = some 0x00100042 := by decide

/-- LEN = 1; ADDR + LEN = 9 > 8; ADDR + LEN = 8, both bytes defined; the second byte UNDEF; busy. -/
theorem witness_DeclenDecodesTheLength :
    (let s : State := { small with len := 1 }
     s.job = none ∧ s.len.toNat < 2) ∧
    (let s : State := { small with addr := 7, len := 2 }
     2 ≤ s.len.toNat ∧ s.cfg.bufBytes < s.addr.toNat + s.len.toNat) ∧
    (let s : State := { holding [0, 0, 0, 0, 0, 0, 0x34, 0x12] with addr := 6, len := 2 }
     s.job = none ∧ 2 ≤ s.len.toNat ∧ s.addr.toNat + s.len.toNat ≤ s.cfg.bufBytes ∧ s.buf.read s.addr.toNat = some 0x34 ∧
     s.buf.read (s.addr.toNat + 1) = some 0x12) ∧
    (let s : State := { holding [0x34] with len := 2 }
     s.job = none ∧ 2 ≤ s.len.toNat ∧ s.addr.toNat + s.len.toNat ≤ s.cfg.bufBytes ∧
     s.buf.read (s.addr.toNat + 1) = none) ∧
    rawBusy.job = some ⟨.rxRaw, 0, 3, 2, 0, 0⟩ := by decide

/-- A frame sent, then received, and read back from BUF (R-1 with an empty payload). -/
theorem witness_EncodedFramesDecodeBack :
    let F : List Byte := [0x01, 0x00, 0x41, 0x8B, 0x9E, 0xD9, 0xD3]
    (small.job = none ∧ small.agenda = [] ∧ small.txReady = true ∧ small.len.toNat ≤ 65534 ∧
      small.addr.toNat + small.len.toNat ≤ small.cfg.bufBytes ∧ small.readSlice small.addr.toNat small.len.toNat = .ok []) ∧
    (∃ u, exec (.encode 0x41) small = .next u ∧
      ∃ t, Host.Core.run core (small.len.toNat + 7) u = .next t ∧ t.txOut = small.txOut ++ F) ∧
    (∃ r : State, r.job = none ∧ r.rxq = F ∧ (7 : Word).toNat + (1 + 0) ≤ r.cfg.bufBytes ∧
      r.agenda = [cmdWrite (encode .rxHdr), .engine, .engine, .host 0x08 (.write (.word 7)), cmdWrite (encode .rxBody)]) ∧
    (∃ r : State, r.job = none ∧ r.readSlice (1 : Word).toNat (0 + 7) = .ok F ∧
      r.readSlice ((1 : Word).toNat + 3 + 0) 4 = .ok [0x8B, 0x9E, 0xD9, 0xD3] ∧
      r.agenda = [.host 0x08 (.write (.word 1)), .host 0x0C (.write (.word 7)), cmdWrite (encode .declen),
        .host 0x08 (.write (.word 3)), .host 0x0C (.write (.word 1)),
        .host 0x18 (.write (.word (le32 0x8B 0x9E 0xD9 0xD3))), cmdWrite (encode .crcCheck)]) :=
  ⟨⟨rfl, rfl, rfl, by decide, by decide, rfl⟩,
   ⟨_, rfl, _, by rfl, by decide +kernel⟩,
   ⟨{ small with
        rxq := [0x01, 0x00, 0x41, 0x8B, 0x9E, 0xD9, 0xD3],
        agenda := [cmdWrite (encode .rxHdr), .engine, .engine, .host 0x08 (.write (.word 7)),
                   cmdWrite (encode .rxBody)] }, rfl, rfl, by decide, rfl⟩,
   ⟨{ holding [0, 0x01, 0x00, 0x41, 0x8B, 0x9E, 0xD9, 0xD3] with
        agenda := [.host 0x08 (.write (.word 1)), .host 0x0C (.write (.word 7)), cmdWrite (encode .declen),
          .host 0x08 (.write (.word 3)), .host 0x0C (.write (.word 1)),
          .host 0x18 (.write (.word (le32 0x8B 0x9E 0xD9 0xD3))), cmdWrite (encode .crcCheck)] }, rfl, rfl, rfl, rfl⟩⟩

/-- Idle, busy, a byte waiting for the last index of BUF, and EOS. -/
theorem witness_RxRawReceivesOrCloses_steps :
    small.job = none ∧ rawBusy.job = some ⟨.rxRaw, 0, 3, 2, 0, 0⟩ ∧ rawBusy.rxq = 3 :: [] ∧
    (0 : Word).toNat + (2 : Word).toNat < rawBusy.cfg.bufBytes ∧
    (7 : Word).toNat + (0 : Word).toNat < (running ⟨.rxRaw, 7, 1, 0, 0, 0⟩ small).cfg.bufBytes ∧
    (let s : State := { rawBusy with rxq := [], rxEos := true }
     s.job = some ⟨.rxRaw, 0, 3, 2, 0, 0⟩ ∧ s.rxq = [] ∧ s.rxEos = true) := by decide

theorem witness_RxRawTakesExactlyLenBytes :
    let s : State := { small with addr := 6, len := 2, rxq := [1, 2, 3] }
    s.job = none ∧ s.agenda = [] ∧ s.rxq = [1, 2] ++ [3] ∧ ([1, 2] : List Byte).length = s.len.toNat ∧
    s.addr.toNat + s.len.toNat ≤ s.cfg.bufBytes := by decide

theorem witness_RxRawReceivesOrCloses_runs :
    let s : State := { small with addr := 6, len := 2, rxq := [1], rxEos := true }
    s.job = none ∧ s.agenda = [] ∧ s.rxEos = true ∧ s.rxq.length < s.len.toNat ∧
    s.addr.toNat + s.len.toNat ≤ s.cfg.bufBytes := by decide

/-- Each way a step of a busy RXRAW can go: a delivery, the last byte, EOS, a DEADLINE, a reset. -/
theorem witness_RxRawStoresTheDeliveriesInOrder :
    FillAt .rxRaw 0 3 [1, 2, 3] rawBusy ⟨.rxRaw, 0, 3, 2, 0, 0⟩ ∧
    FillAt .rxRaw 0 3 [1, 2] { rawBusy with rxq := [], rxEos := true } ⟨.rxRaw, 0, 3, 2, 0, 0⟩ ∧
    [[], [.engine], [.rxByte 4], [cmdWrite 0x000000FF], [.reset]].map
      (fun es => (after (step { rawBusy with agenda := es })).isSome) = List.replicate 5 true ∧
    (after (step { rawBusy with rxq := [], rxEos := true })).isSome = true :=
  ⟨⟨rfl, rfl, rfl, rfl, by decide, by decide, by decide, rfl, rfl, rfl, rfl⟩,
   ⟨rfl, rfl, rfl, rfl, by decide, by decide, by decide, rfl, rfl, rfl, rfl⟩, by decide, by decide⟩

/-- Idle, busy; the first byte; the second, in a state the invariant admits; EOS. -/
theorem witness_RxHdrReadsTheLength :
    small.job = none ∧ rawBusy.job = some ⟨.rxRaw, 0, 3, 2, 0, 0⟩ ∧
    (let s : State := { running ⟨.rxHdr, 0, 2, 0, 0, 0⟩ small with rxq := [5] }
     s.job = some ⟨.rxHdr, 0, 2, 0, 0, 0⟩ ∧ s.rxq = 5 :: [] ∧ (0 : Word) + 1 ≠ 2) ∧
    (Inv headerBusy ∧ headerBusy.job = some ⟨.rxHdr, 0, 2, 1, 0, 5⟩ ∧ headerBusy.rxq = 0x12 :: [] ∧ (1 : Word) + 1 = 2) ∧
    (let s : State := { headerBusy with rxq := [], rxEos := true }
     s.job = some ⟨.rxHdr, 0, 2, 1, 0, 5⟩ ∧ s.rxq = [] ∧ s.rxEos = true) ∧
    (let s : State := { small with rxq := [0x05, 0x00, 0x52] }
     s.job = none ∧ s.agenda = [] ∧ s.rxq = 0x05 :: 0x00 :: [0x52]) :=
  ⟨rfl, rfl, by decide, ⟨witness_headerBusy_meets_the_invariant, rfl, rfl, rfl⟩, by decide, by decide⟩

/-- The last byte of an RXHDR and of an RXBODY, a delivery, EOS, a DEADLINE, a reset. -/
theorem witness_HeaderAndBodyReceiveTheDeliveries :
    HeaderAt [0x05, 0x12] headerBusy ⟨.rxHdr, 0, 2, 1, 0, 5⟩ ∧
    HeaderAt [0x05] { headerBusy with rxq := [], rxEos := true } ⟨.rxHdr, 0, 2, 1, 0, 5⟩ ∧
    BodyAt 0 1 [0x41, 0, 0, 0, 4] { bodyBusy with crc := crcFold 0xFFFFFFFF [0x41] } ⟨.rxBody, 0, 5, 4, 0, 0⟩ ∧
    BodyAt 0 1 [0x41, 0, 0, 0] { bodyBusy with crc := crcFold 0xFFFFFFFF [0x41], rxq := [], rxEos := true }
      ⟨.rxBody, 0, 5, 4, 0, 0⟩ ∧
    [[], [.engine], [.rxByte 4], [cmdWrite 0x000000FF], [.reset]].map
      (fun es => (after (step { headerBusy with agenda := es })).isSome &&
        (after (step { bodyBusy with agenda := es })).isSome) = List.replicate 5 true ∧
    (after (step { headerBusy with rxq := [], rxEos := true })).isSome = true ∧
    (after (step { bodyBusy with rxq := [], rxEos := true })).isSome = true :=
  ⟨⟨rfl, rfl, rfl, by decide, by decide, by decide, rfl, rfl, rfl⟩,
   ⟨rfl, rfl, rfl, by decide, by decide, by decide, rfl, rfl, rfl⟩,
   ⟨rfl, rfl, rfl, rfl, by decide, by decide, by decide, rfl, rfl, by decide, rfl, rfl, rfl⟩,
   ⟨rfl, rfl, rfl, rfl, by decide, by decide, by decide, rfl, rfl, by decide, rfl, rfl, rfl⟩,
   by decide, by decide, by decide⟩

/-- Idle, busy; a text byte for the last index, a checksum byte, the last byte; EOS. -/
theorem witness_RxBodyStartsAndSteps :
    small.job = none ∧ rawBusy.job = some ⟨.rxRaw, 0, 3, 2, 0, 0⟩ ∧
    (let s : State := { running ⟨.rxBody, 7, 5, 0, 0, 0⟩ small with rxq := [0x41], dlen := 1 }
     s.job = some ⟨.rxBody, 7, 5, 0, 0, 0⟩ ∧ s.rxq = 0x41 :: [] ∧ (0 : Word) + 1 ≠ 5 ∧
     (0 : Word).toNat < (5 : Word).toNat - 4 ∧ (7 : Word).toNat + (0 : Word).toNat < s.cfg.bufBytes) ∧
    (let s : State := { running ⟨.rxBody, 0, 4, 0, 0, 0⟩ small with rxq := [0x8B] }
     s.rxq = 0x8B :: [] ∧ (0 : Word) + 1 ≠ 4 ∧ ¬ (0 : Word).toNat < (4 : Word).toNat - 4) ∧
    bodyBusy.job = some ⟨.rxBody, 0, 5, 4, 0, 0⟩ ∧ bodyBusy.rxq = 4 :: [] ∧ (4 : Word) + 1 = 5 ∧ 4 ≤ (5 : Word).toNat ∧
    (let s : State := { bodyBusy with rxq := [], rxEos := true }
     s.rxq = [] ∧ s.rxEos = true) := by decide

/-- X-11 with a byte of the next response behind it, and the text at the end of BUF. -/
theorem witness_RxBodyReceivesAndChecks :
    let s : State := { small with addr := 3, dlen := 5, rxq := rusef ++ [0x2A, 0x5B, 0x69, 0x04] ++ [0x77] }
    s.job = none ∧ s.agenda = [] ∧ s.rxq = rusef ++ [0x2A, 0x5B, 0x69, 0x04] ++ [0x77] ∧
    rusef.length = s.dlen.toNat ∧ s.addr.toNat + rusef.length ≤ s.cfg.bufBytes := by decide

theorem witness_RxFlushDropsTheWaitingBytes :
    ({ small with rxq := [1, 2] } : State).job = none ∧ rawBusy.job = some ⟨.rxRaw, 0, 3, 2, 0, 0⟩ := ⟨rfl, rfl⟩

/-- Idle, busy; a byte for the last index but one of BUF, the eighth byte; EOS. -/
theorem witness_ProbeStartsAndEndsEarly :
    small.job = none ∧ rawBusy.job = some ⟨.rxRaw, 0, 3, 2, 0, 0⟩ ∧
    (let s : State := { running ⟨.probe, 0, 8, 6, 0, 0⟩ small with rxq := [0xFF] }
     s.job = some ⟨.probe, 0, 8, 6, 0, 0⟩ ∧ s.rxq = 0xFF :: [] ∧ (6 : Word) + 1 ≠ 8 ∧
     (0 : Word).toNat + (6 : Word).toNat < s.cfg.bufBytes) ∧
    (probeBusy.job = some ⟨.probe, 0, 8, 7, 0, 0⟩ ∧ (0 : Word).toNat + 8 ≤ probeBusy.cfg.bufBytes ∧
     probeBusy.rxq = 0xFE :: []) ∧
    (let s : State := { running ⟨.probe, 0, 8, 0, 0, 0⟩ small with rxEos := true }
     s.job = some ⟨.probe, 0, 8, 0, 0, 0⟩ ∧ s.rxq = [] ∧ s.rxEos = true) := by decide

/-- A header with the magic constant, and one that differs in its fourth byte only. -/
theorem witness_ProbeClassifiesTheHeader :
    (let s : State := { small with rxq := [0x50, 0x00, 0x49, 0x00, 0x02, 0x01, 0xFF, 0xFF, 0x7E] }
     s.job = none ∧ s.agenda = [] ∧ s.rxq = [0x50, 0x00, 0x49, 0x00, 0x02, 0x01, 0xFF, 0xFF] ++ [0x7E] ∧
     s.addr.toNat + 8 ≤ s.cfg.bufBytes) ∧
    (let s : State := { small with rxq := [0x50, 0x00, 0x49, 0x01, 0x02, 0x01, 0xFF, 0xFF] }
     s.job = none ∧ s.agenda = [] ∧ s.rxq = [0x50, 0x00, 0x49, 0x01, 0x02, 0x01, 0xFF, 0xFF] ++ [] ∧
     s.addr.toNat + 8 ≤ s.cfg.bufBytes) := by decide

/-- The eighth byte of a header that matches and of one that does not, a delivery, EOS, a DEADLINE, a reset. -/
theorem witness_ProbeAccumulatesTheDeliveries :
    probeBusy.ver = 0 ∧ probeBusy.readSlice 0 7 = .ok [0x50, 0x00, 0x49, 0x00, 0x02, 0x01, 0xFF] ∧
    FillAt .probe 0 8 [0x50, 0x00, 0x49, 0x00, 0x02, 0x01, 0xFF, 0xFE] probeBusy ⟨.probe, 0, 8, 7, 0, 0⟩ ∧
    FillAt .probe 0 8 [1, 2, 3, 4, 5, 6, 7, 8]
      { probeBusy with buf := (holding [1, 2, 3, 4, 5, 6, 7]).buf, rxq := [8] } ⟨.probe, 0, 8, 7, 0, 0⟩ ∧
    FillAt .probe 0 8 [0x50, 0x00, 0x49, 0x00, 0x02, 0x01, 0xFF] { probeBusy with rxq := [], rxEos := true }
      ⟨.probe, 0, 8, 7, 0, 0⟩ ∧
    [[], [.engine], [.rxByte 4], [cmdWrite 0x000000FF], [.reset]].map
      (fun es => (after (step { probeBusy with agenda := es })).isSome) = List.replicate 5 true ∧
    (after (step { probeBusy with rxq := [], rxEos := true })).isSome = true :=
  ⟨rfl, rfl,
   ⟨rfl, rfl, rfl, rfl, by decide, by decide, by decide, rfl, rfl, rfl, rfl⟩,
   ⟨rfl, rfl, rfl, rfl, by decide, by decide, by decide, rfl, rfl, rfl, rfl⟩,
   ⟨rfl, rfl, rfl, rfl, by decide, by decide, by decide, rfl, rfl, rfl, rfl⟩, by decide, by decide⟩

/-- Two machines that differ in BUF, BUF_BYTES, ADDR and CRC, and see the same stream. -/
theorem witness_ProbeDependsOnlyOnTheStream :
    ∃ s1 s2 u1 u2 t1 t2 : State, s1.job = none ∧ s2.job = none ∧ s1.agenda = [] ∧ s2.agenda = [] ∧
      s1.rxq = s2.rxq ∧ s1.rxEos = s2.rxEos ∧ s1.addr.toNat + 8 ≤ s1.cfg.bufBytes ∧
      s2.addr.toNat + 8 ≤ s2.cfg.bufBytes ∧ exec .probe s1 = .next u1 ∧ exec .probe s2 = .next u2 ∧
      Host.Core.run core 9 u1 = .next t1 ∧ Host.Core.run core 9 u2 = .next t2 :=
  ⟨{ small with rxq := [0x50, 0x00], rxEos := true },
   { holding [1, 2, 3] with cfg := ⟨13, 0⟩, addr := 0xFFF8, crc := 7, rxq := [0x50, 0x00], rxEos := true },
   _, _, _, _, rfl, rfl, rfl, rfl, rfl, rfl, by decide, by decide, rfl, rfl, by rfl, by rfl⟩

/-- Each way an access can be illegal, at its boundary. -/
theorem witness_IllegalAccessesRaiseBusError :
    (access 0x2C (.read .half) small).agenda = .host 0x2C (.read .half) :: [] ∧
    ((0x2C : Word).toNat < 0x30 ∧ (Transfer.read .half).size.bytes ≠ 4) ∧
    ((0x2E : Word).toNat < 0x30 ∧ (0x2E : Word).toNat % 4 ≠ 0) ∧
    (0x30 ≤ (0x30 : Word).toNat ∧ (0xFFFF : Word).toNat < 0x10000) ∧
    (0x10000 ≤ (0x10008 : Word).toNat ∧
      0x10000 + small.cfg.bufBytes < (0x10008 : Word).toNat + (Transfer.read .byte).size.bytes) ∧
    (0x10000 ≤ (0x10001 : Word).toNat ∧ (0x10001 : Word).toNat % (Transfer.read .half).size.bytes ≠ 0) := by decide

theorem witness_RegisterAccessesAtTheirOffsets :
    (access 0x2C (.write (.word 1)) small).agenda = .host 0x2C (.write (.word 1)) :: [] ∧
    (0x2C : Word) ∈ readOnlyOffsets ∧
    (access 0x2C (.read .word) small).agenda = .host 0x2C (.read .word) :: [] ∧
    ((0x2C : Word), (0x00490050 : Word)) ∈ small.wordReads ∧
    small.job = none ∧ (access 0x18 (.write (.word 1)) small).agenda = .host 0x18 (.write (.word 1)) :: [] := by decide

/-- A word write and a halfword read at the end of BUF; a read whose second byte is UNDEF. -/
theorem witness_BufWindowIsLittleEndian :
    small.job = none ∧ (0x10004 : Word).toNat = 0x10000 + 4 ∧
    (0x10004 : Word).toNat % (Datum.word 1).size.bytes = 0 ∧ 4 + (Datum.word 1).size.bytes ≤ small.cfg.bufBytes ∧
    (let s := holding [1, 2, 3, 4, 5, 6, 7, 8]
     s.job = none ∧ (0x10006 : Word).toNat = 0x10000 + 6 ∧ (0x10006 : Word).toNat % Size.half.bytes = 0 ∧
     6 + Size.half.bytes ≤ s.cfg.bufBytes ∧ s.buf.read (6 + 0) = some 7 ∧ s.buf.read (6 + 1) = some 8) ∧
    (let s := holding [1, 2, 3, 4, 5, 6, 7]
     1 < Size.half.bytes ∧ s.buf.read (6 + 1) = none) := by decide

/-- Accesses of every row of R67, while an RXRAW is in progress. -/
theorem witness_AccessesWhileBusy :
    rawBusy.job = some ⟨.rxRaw, 0, 3, 2, 0, 0⟩ ∧
    (access 0x10000 (.read .byte) rawBusy).agenda = .host 0x10000 (.read .byte) :: [] ∧
    0x10000 ≤ (0x10000 : Word).toNat ∧ (0x18#32) ∈ [0x08#32, 0x0C#32, 0x10#32, 0x18#32] ∧
    (0x000000FE : Word) ≠ 0x000000FF ∧
    (0x2C : Word) ∈ readOnlyOffsets ∧
    ((0x2C : Word), (0x00490050 : Word)) ∈ rawBusy.wordReads ∧
    (0x2C : Word).toNat < 0x30 ∧ (0x2C : Word).toNat % 4 = 0 := by decide

theorem witness_ReadsHaveNoSideEffect :
    let s : State := { rawBusy with agenda := [.host 0x24 (.read .word), .host 0x24 (.read .word)] }
    s.agenda = .host 0x24 (.read .word) :: .host 0x24 (.read .word) :: [] ∧ (after (step s)).isSome = true := by decide

/-- Every command answers, from an idle state and from a busy one. -/
theorem witness_CommandWritesLeaveTheRestUnchanged :
    [Instr.nop, .crcInit, .crcByte 1, .crcBuf, .crcCalc, .crcCheck, .encode 1, .declen, .probe, .rxHdr, .rxBody,
      .rxFlush, .rxRaw, .deadline].map
      (fun i => (after (exec i { holding [1, 2] with len := 2 })).isSome && (after (exec i rawBusy)).isSome) =
      List.replicate 14 true := by decide +kernel

/-- Every kind of job answers an engine step. -/
theorem witness_EngineStepMovesOneByte :
    [running ⟨.crcBuf, 0, 1, 0, 0, 0⟩ (holding [1]), running ⟨.crcCalc, 0, 1, 0, 0, 0⟩ (holding [1]), checkBusy,
      encodeBusy, running ⟨.probe, 0, 8, 0, 0, 0⟩ small, running ⟨.rxHdr, 0, 2, 0, 0, 0⟩ small, bodyBusy, rawBusy].map
      (fun s => s.job.isSome && (after (engineStep s)).isSome) = List.replicate 8 true := by decide +kernel

/-- CRC changes by a host write, a reset, a command and an engine step. -/
theorem witness_OnlyTheNamedWritersChangeCrc :
    [access 0x10 (.write (.word 5)) small, { small with crc := 5, agenda := [.reset] }, given 0x00004102 small,
      checkBusy].map (fun s => (after (step s)).map fun t => t.crc != s.crc) = List.replicate 4 (some true) := by
  decide +kernel

theorem witness_LinkStepsChangeOnlyTheirPort :
    (let s : State := { rawBusy with agenda := [.rxByte 4] }
     s.agenda = .rxByte 4 :: [] ∧ s.rxEos = false) ∧
    (let s : State := { rawBusy with rxEos := true, agenda := [.rxByte 4] }
     s.agenda = .rxByte 4 :: [] ∧ s.rxEos = true ∧ (after (step s)).isSome = true) ∧
    ({ small with agenda := [.rxEnd] } : State).agenda = .rxEnd :: [] ∧
    ({ small with agenda := [.txReady false] } : State).agenda = .txReady false :: [] := by decide

/-- An append, the engine's turn, RXFLUSH. -/
theorem witness_RxQueueKeepsItsOrder :
    [{ small with agenda := [.rxByte 7] }, rawBusy, given 0x00000023 { small with rxq := [1] }].map
      (fun s => (after (step s)).map (·.rxq)) = [some [7], some [], some []] := by decide

theorem witness_EndOfStreamIsFinalAndLast :
    (let s : State := { small with rxq := [1], rxEos := true, agenda := [.rxByte 2] }
     (after (step s)).isSome = true ∧ s.rxEos = true ∧ s.rxq = 1 :: []) ∧
    (let s : State := { rawBusy with rxq := [], rxEos := true }
     s.job = some ⟨.rxRaw, 0, 3, 2, 0, 0⟩ ∧ JobOp.rxRaw.isRx = true ∧ s.rxHead = .eos) := by decide

theorem witness_TxOutGrowsOnlyWhenReady :
    (after (step encodeBusy)).map (·.txOut) = some [0x04, 0x00, 0x53, 0x01] ∧
    (after (step { encodeBusy with agenda := [.txReady false] })).map (·.txReady) = some false := by decide +kernel

theorem witness_ResetRestoresTheRegisters :
    ({ rawBusy with agenda := [.reset] } : State).agenda = .reset :: [] := rfl

theorem witness_ParametersNeverChange : (after (step { rawBusy with agenda := [.reset] })).isSome = true := by decide

end Sys2Proof.Tests
end

section
/-! The scope's statement that the parameters are fixed (R8, R39). One lemma per named operation says that where it answers,
`cfg` is as it was; the step's inversion lemma puts them together. -/

namespace Sys2Proof.Machine

/-! What the shared gates of a start rule keep, given what the gated rule keeps. -/

theorem State.whenIdle_keeps_cfg {s t : State} {op : Byte} {rule : State → Answer}
    (hrule : ∀ u v : State, rule u = .next v → v.cfg = u.cfg) (h : s.whenIdle op rule = .next t) : t.cfg = s.cfg := by
  rcases State.whenIdle_eq_next h with ⟨-, rfl⟩ | ⟨-, hr⟩
  · rfl
  · simpa using hrule _ _ hr

theorem State.checkRange_keeps_cfg {s t : State} {a n : Nat} {rule : State → Answer}
    (hrule : ∀ u v : State, rule u = .next v → v.cfg = u.cfg) (h : s.checkRange a n rule = .next t) : t.cfg = s.cfg := by
  rcases State.checkRange_eq_next h with ⟨-, rfl⟩ | ⟨-, hr⟩
  · rfl
  · exact hrule _ _ hr

/-! The commands and the host's access. -/

theorem rxTimeout_cfg (j : Job) (s : State) : (rxTimeout j s).cfg = s.cfg := by
  obtain ⟨k, hk⟩ := rxTimeout_eq j s
  simp [hk]

theorem execEncode_keeps_cfg {cmd : Byte} {s t : State} (h : execEncode cmd s = .next t) : t.cfg = s.cfg := by
  refine State.whenIdle_keeps_cfg (fun u v hr => ?_) h
  split at hr
  · cases hr; rfl
  · exact State.checkRange_keeps_cfg (fun _ _ hn => by cases hn; rfl) hr

theorem execDeclen_keeps_cfg {s t : State} (h : execDeclen s = .next t) : t.cfg = s.cfg := by
  refine State.whenIdle_keeps_cfg (fun u v hr => ?_) h
  split at hr
  · cases hr; rfl
  · refine State.checkRange_keeps_cfg (fun x y hn => ?_) hr
    split at hn
    · cases hn
    · split at hn <;> cases hn
      rfl

theorem execDeadline_keeps_cfg {s t : State} (h : execDeadline s = .next t) : t.cfg = s.cfg := by
  unfold execDeadline at h
  dsimp only at h
  split at h
  · cases h; rfl
  · split at h <;> cases h
    · exact rxTimeout_cfg ..
    · rfl

/-- The commands differ in their gates: those without a range check, those whose rule is one start, and those that finish at
once when there is no byte to move. -/
theorem exec_keeps_cfg {i : Instr} {s t : State} (h : exec i s = .next t) : t.cfg = s.cfg := by
  cases i
  case nop | crcInit | crcByte | rxHdr | rxFlush =>
    dsimp only [exec, execNop, execCrcInit, execCrcByte, execRxHdr, execRxFlush] at h
    exact State.whenIdle_keeps_cfg (fun _ _ hr => by cases hr; rfl) h
  case rxBody | probe =>
    exact State.whenIdle_keeps_cfg (fun _ _ hr => State.checkRange_keeps_cfg (fun _ _ hn => by cases hn; rfl) hr) h
  case crcBuf | crcCalc | crcCheck | rxRaw =>
    dsimp only [exec, execCrcBuf, execCrcCalc, execCrcCheck, execRxRaw] at h
    refine State.whenIdle_keeps_cfg (fun _ _ hr => State.checkRange_keeps_cfg (fun _ _ hn => ?_) hr) h
    split at hn <;> cases hn <;> rfl
  case encode => exact execEncode_keeps_cfg h
  case declen => exact execDeclen_keeps_cfg h
  case deadline => exact execDeadline_keeps_cfg h

theorem presentWord_keeps_cfg {w : Word} {s t : State} (h : presentWord w s = .next t) : t.cfg = s.cfg := by
  unfold presentWord at h
  split at h
  · exact exec_keeps_cfg h
  · exact State.whenIdle_keeps_cfg (fun _ _ hr => by cases hr; rfl) h

theorem hostAccess_keeps_cfg {off : Word} {tr : Transfer} {s t : State} (h : hostAccess off tr s = .next t) :
    t.cfg = s.cfg := by
  rcases hostAccess_eq_next h with ⟨r, rfl⟩ | ⟨-, v, hreg⟩ | ⟨-, a, bs, -, rfl⟩ | ⟨w, -, -, hcmd⟩
  · rfl
  · rcases hreg with rfl | rfl | ⟨-, rfl⟩ | rfl <;> rfl
  · rfl
  · exact presentWord_keeps_cfg hcmd

/-! The engine. -/

theorem checksumStep_keeps_cfg {j : Job} {s t : State} (h : checksumStep j s = .next t) : t.cfg = s.cfg := by
  obtain ⟨b, -, ⟨-, -, rfl⟩ | ⟨-, -, rfl⟩ | ⟨-, rfl⟩⟩ := checksumStep_eq_next h <;> rfl

theorem encodeStep_keeps_cfg {j : Job} {s t : State} (h : encodeStep j s = .next t) : t.cfg = s.cfg := by
  rcases encodeStep_eq_next h with ⟨-, rfl⟩ | ⟨-, b, u, -, rfl, ht⟩
  · rfl
  · rcases ht with ⟨-, rfl⟩ | ⟨-, rfl⟩ <;> simp [apply_ite State.cfg]

theorem rxByteRule_keeps_cfg {j j' : Job} {b : Byte} {s u : State} (h : rxByteRule j b s = .ok (j', u)) :
    u.cfg = s.cfg := by
  obtain ⟨-, ⟨a, -, -, -, rfl | ⟨-, rfl⟩⟩ | ⟨-, rfl⟩⟩ := rxByteRule_eq_ok h <;> rfl

theorem rxComplete_keeps_cfg {j : Job} {s t : State} (h : rxComplete j s = .next t) : t.cfg = s.cfg := by
  obtain ⟨v, d, c, m, k, rfl⟩ := rxComplete_eq_next h
  rfl

theorem rxStep_keeps_cfg {j : Job} {s t : State} (h : rxStep j s = .next t) : t.cfg = s.cfg := by
  rcases rxStep_eq_next h with ⟨-, rfl⟩ | ⟨-, rfl⟩ | ⟨b, j', u, -, hrule, ht⟩
  · rfl
  · obtain ⟨k, hk⟩ := rxClose_eq j s
    simp [hk]
  · have hu : u.cfg = s.cfg := by simpa using rxByteRule_keeps_cfg hrule
    rcases ht with ⟨-, hc⟩ | ⟨-, rfl⟩
    · exact (rxComplete_keeps_cfg hc).trans hu
    · exact hu

theorem engineStep_keeps_cfg {s t : State} (h : engineStep s = .next t) : t.cfg = s.cfg := by
  rcases engineStep_eq_next h with ⟨-, rfl⟩ | ⟨j, -, ⟨-, hc⟩ | ⟨-, he⟩ | ⟨-, hx⟩⟩
  · rfl
  · exact checksumStep_keeps_cfg hc
  · exact encodeStep_keeps_cfg he
  · exact rxStep_keeps_cfg hx

/-- Settles O59: of the agents, only the engine and the host run operations with cases of their own, and each of those keeps
`cfg`; a link's step and a reset keep it as their field lemmas say. -/
theorem parametersNeverChange : Obligations.ParametersNeverChange := by
  intro s t h
  rcases step_eq_next h with ⟨-, heng⟩ | ⟨e, rest, -, ⟨off, tr, -, hhost⟩ | ⟨addr, tr, -, rfl⟩ | ⟨b, -, rfl⟩ |
    ⟨-, rfl⟩ | ⟨v, -, rfl⟩ | ⟨-, rfl⟩⟩
  · exact (engineStep_keeps_cfg heng :)
  · exact (hostAccess_keeps_cfg hhost :)
  · rfl
  · exact State.linkAppend_cfg ..
  · exact State.linkEnd_cfg _
  · exact State.linkReady_cfg ..
  · exact State.blockReset_cfg _

end Sys2Proof.Machine
end

section
/-! The parts of the state that the outside sees directly: STATUS as a read gives it (R22, R23), and the links' steps
(R40 to R42). -/

namespace Sys2Proof.Machine

/-- Settles O44: a field is what is left of the word when the fields below it are stripped from it, one at a time. -/
theorem statusWordLayout : Obligations.StatusWordLayout := by
  intro s
  unfold State.statusWord
  refine ⟨?busy, ?done, ?cls, ?result, ?matched, ?reserved9, ?op, ?reserved24⟩
  case busy =>
    simp only [BitVec.getLsbD_append]
    simp [State.busy, Option.isSome_iff_ne_none]
  case done | matched =>
    simp only [BitVec.getLsbD_append]
    simp
  case cls =>
    trans s.status.cls.code
    · iterate 2 rw [BitVec.extractLsb'_append_eq_of_le (by decide)]
      exact BitVec.extractLsb'_append_eq_right
    · cases s.status.cls <;> rfl
  case result =>
    trans s.status.result.code
    · iterate 3 rw [BitVec.extractLsb'_append_eq_of_le (by decide)]
      exact BitVec.extractLsb'_append_eq_right
    · cases s.status.result <;> rfl
  case reserved9 =>
    iterate 5 rw [BitVec.extractLsb'_append_eq_of_le (by decide)]
    exact BitVec.extractLsb'_append_eq_right
  case op =>
    iterate 6 rw [BitVec.extractLsb'_append_eq_of_le (by decide)]
    exact BitVec.extractLsb'_append_eq_right
  case reserved24 =>
    iterate 7 rw [BitVec.extractLsb'_append_eq_of_le (by decide)]
    rfl

/-- Settles O51: each is the link's own operation, on the agenda with that event taken. -/
theorem linkStepsChangeOnlyTheirPort : Obligations.LinkStepsChangeOnlyTheirPort := by
  refine ⟨fun s b rest ha hEos => ?_, fun s t b rest ha hEos h => ?_, fun s rest ha => step_of_cons ha,
    fun s v rest ha => step_of_cons ha⟩
  · simp [step_of_cons ha, handle, State.linkAppend, hEos]
  · rw [step_of_cons ha] at h
    cases h
    simp [hEos]

end Sys2Proof.Machine
end

section
/-! What a word presented at CMD does, said once for every command (R100 to R107): the frame of its start rule, and
how the rule leaves STATUS and the job. -/

namespace Sys2Proof

/-- A legal word's fields are its command's (R84). -/
theorem fields_of_decode {w : Word} {i : Instr} (h : decode w = .ok i) : i.fields = unpack w := by
  unfold decode at h
  rcases ite_eq_cases h with ⟨hrsv, h⟩ | ⟨-, h⟩
  · rw [decodeFields_eq_ok h, ← hrsv]
  · cases h

/-- A legal word is the word of the command it decodes to (R84, R88). -/
theorem eq_encode_of_decode {w : Word} {i : Instr} (h : decode w = .ok i) : w = encode i := by
  rw [encode, fields_of_decode h, pack_unpack]

/-- The commands whose start rule writes CRC (R131). -/
def Instr.startsCrc : Instr → Bool
  | .crcInit | .crcByte _ | .crcCalc | .crcCheck | .encode _ | .rxBody => true
  | _ => false

/-- The commands whose start rule writes RXCNT (R35). -/
def Instr.startsRxCnt : Instr → Bool
  | .probe | .rxHdr | .rxBody | .rxRaw | .rxFlush => true
  | _ => false

theorem Instr.startsRxCnt_eq_false {i : Instr} (h : i ∉ [Instr.probe, .rxHdr, .rxBody, .rxRaw, .rxFlush]) :
    i.startsRxCnt = false := by
  cases i <;> simp_all [startsRxCnt]

theorem Instr.startsCrc_eq_false {i : Instr} (hb : ∀ b, i ≠ .crcByte b) (hc : ∀ c, i ≠ .encode c)
    (h : i ∉ [Instr.crcInit, .crcCalc, .crcCheck, .rxBody]) : i.startsCrc = false := by
  cases i <;> simp_all [startsCrc]

/-- The opcodes of the commands whose start rule writes CRC (R84, R131). -/
theorem Instr.op_of_startsCrc {i : Instr} (h : i.startsCrc = true) :
    i.fields.op ∈ [0x01#8, 0x02#8, 0x04#8, 0x05#8, 0x10#8, 0x22#8] := by
  cases i <;> simp_all [startsCrc, fields]

namespace Machine

/-- The results a command may end with while CLASS stays NONE: those it may report, a PROBE only RANGE, and ILLEGAL
for any word (R24, R201). -/
def mayReportUnclassed (op : Byte) (r : Result) : Bool :=
  mayReport op r && (op != 0x20 || r == .range || r == .illegal)

/-- A command that finished with CLASS NONE leaves a STATUS the invariant admits. -/
theorem statusOk_done {op : Byte} {r : Result} {m : Bool} (hr : mayReportUnclassed op r = true)
    (hm : m = true → (op = 0x05 ∨ op = 0x22) ∧ r = .ok) : StatusOk { doneStatus op r with matched := m } := by
  simp only [mayReportUnclassed, Bool.and_eq_true, Bool.or_eq_true, bne_iff_ne, beq_iff_eq] at hr
  obtain ⟨hmay, hcls⟩ := hr
  refine ⟨nofun, fun _ => hmay, fun _ => ⟨fun h => absurd rfl h, fun ⟨hop, hrange, hillegal⟩ => ?_⟩, nofun, hm⟩
  exact absurd ((hcls.resolve_right hillegal).resolve_left (fun h => h hop)) hrange

/-- ILLEGAL goes with every OP (R111). -/
theorem mayReportUnclassed_illegal (op : Byte) : mayReportUnclassed op .illegal = true := by
  simp [mayReportUnclassed, mayReport]

theorem statusOk_doneStatus {op : Byte} {r : Result} (hr : mayReportUnclassed op r = true) :
    StatusOk (doneStatus op r) :=
  statusOk_done (m := false) hr nofun

/-- What the start rule of the command `i`, accepted in the idle state `s`, does (R102, R106). The fields that are
closed by `rfl` or `simp` wherever the next state is written out say so here. -/
structure StartRule (i : Instr) (s t : State) : Prop where
  /-- every other field of the state is unchanged -/
  frame : t = { s with
    resp := some .okay
    status := t.status
    job := t.job
    crc := t.crc
    dlen := t.dlen
    ver := t.ver
    rxCnt := t.rxCnt
    txCnt := t.txCnt
    rxq := t.rxq } := by rfl
  rxq : i ≠ .rxFlush → t.rxq = s.rxq := by simp
  dlen : i ≠ .declen → t.dlen = s.dlen := by simp
  ver : i ≠ .probe → t.ver = s.ver := by simp
  txCnt : (∀ c, i ≠ .encode c) → t.txCnt = s.txCnt := by simp
  rxCnt : i.startsRxCnt = false → t.rxCnt = s.rxCnt := by simp [Instr.startsRxCnt]
  crc : i.startsCrc = false → t.crc = s.crc := by simp [Instr.startsCrc]
  flushed : i = .rxFlush →
    t.rxq = [] ∧ t.status = doneStatus 0x23 .ok ∧ t.rxCnt = BitVec.ofNat 32 s.rxq.length := by
      simp [doneStatus]
  /-- it finishes at once with a STATUS the invariant admits, or starts a job that meets the invariant -/
  ends : (t.job = none ∧ StatusOk t.status ∧ ∃ r m, t.status = { doneStatus i.fields.op r with matched := m }) ∨
    ∃ j, t.job = some j ∧ j.op.code = i.fields.op ∧ JobOk t j

/-- A job that has moved no byte has stored none. -/
theorem Job.stored_of_start {j : Job} (h : j.i = 0) : j.stored = 0 := by
  unfold Job.stored
  split <;> simp [h]

/-- A job just started meets the invariant when its byte count is not 0, it lies inside BUF and its count is 0. -/
theorem JobOk.of_start {t : State} {j : Job} (hstatus : t.status = busyStatus j.op.code) (hi : j.i = 0)
    (hacc : j.acc = 0) (hn : 0 < j.n.toNat) (hfits : j.fits t) (hrx : j.op.isRx = true → t.rxCnt = 0)
    (htx : j.op = .encode → t.txCnt = 0) : JobOk t j where
  status := hstatus
  progress := by simpa [hi] using hn
  fits := hfits
  rxCounted h := (hrx h).trans hi.symm
  txCounted h := (htx h).trans hi.symm
  defined k hk := by simp [Job.stored_of_start hi] at hk
  assembled _ := by simp [hacc]

/-- ENCODE checks LEN, then the range, and starts a job of LEN + 7 bytes (R143, R146). -/
theorem startRule_of_execEncode {c : Byte} {s t : State} (hj : s.job = none) (h : execEncode c s = .next t) :
    StartRule (.encode c) s t := by
  rw [execEncode, State.whenIdle_of_idle hj] at h
  rcases ite_eq_cases h with ⟨-, h⟩ | ⟨hlen, h⟩
  · cases h
    exact { ends := .inl ⟨rfl, statusOk_doneStatus rfl, _, _, rfl⟩ }
  · rcases State.checkRange_eq_next h with ⟨-, rfl⟩ | ⟨hle, h⟩
    · exact { ends := .inl ⟨rfl, statusOk_doneStatus rfl, _, _, rfl⟩ }
    · cases h
      simp only [State.accept_len, State.respond_len, Config.maxPayload, Nat.not_lt] at hlen hle
      have hn : (s.len + 7).toNat = s.len.toNat + 7 := by bv_omega
      refine { ends := .inr ⟨_, rfl, rfl, .of_start rfl rfl rfl ?_ ?_ nofun fun _ => rfl⟩ }
      · exact hn ▸ Nat.succ_pos _
      · show 7 ≤ (s.len + 7).toNat ∧ (s.len + 7).toNat ≤ 65534 + 7 ∧
          s.addr.toNat + ((s.len + 7).toNat - 7) ≤ s.cfg.bufBytes
        rw [hn]
        exact ⟨Nat.le_add_left .., Nat.add_le_add_right hlen 7, hle⟩

/-- DECLEN checks LEN, then the range, and finishes at once (R144). -/
theorem startRule_of_execDeclen {s t : State} (hj : s.job = none) (h : execDeclen s = .next t) :
    StartRule .declen s t := by
  rw [execDeclen, State.whenIdle_of_idle hj] at h
  rcases ite_eq_cases h with ⟨-, h⟩ | ⟨-, h⟩
  · cases h
    exact { ends := .inl ⟨rfl, statusOk_doneStatus rfl, _, _, rfl⟩ }
  · rcases State.checkRange_eq_next h with ⟨-, rfl⟩ | ⟨-, h⟩
    · exact { ends := .inl ⟨rfl, statusOk_doneStatus rfl, _, _, rfl⟩ }
    · split at h
      · cases h
      · split at h <;> cases h
        exact { ends := .inl ⟨rfl, statusOk_doneStatus rfl, _, _, rfl⟩ }

/-- While idle, a command other than DEADLINE that answers has run its start rule: by the rule's exits, in the order
the rule checks them. -/
theorem startRule_of_exec {i : Instr} {s t : State} (hj : s.job = none) (hi : i ≠ .deadline) (h : exec i s = .next t) :
    StartRule i s t := by
  cases i <;> simp only [exec, execNop, execCrcInit, execCrcByte, execCrcBuf, execCrcCalc, execCrcCheck, execProbe,
    execRxHdr, execRxBody, execRxFlush, execRxRaw, State.whenIdle_of_idle hj] at h
  case deadline => exact absurd rfl hi
  case nop | crcInit | crcByte | rxFlush =>
    cases h
    exact { ends := .inl ⟨rfl, statusOk_doneStatus rfl, _, _, rfl⟩ }
  case rxHdr =>
    cases h
    exact { ends := .inr ⟨_, rfl, rfl, .of_start rfl rfl rfl (by decide) rfl (fun _ => rfl) nofun⟩ }
  case crcBuf | crcCalc | rxRaw =>
    rcases State.checkRange_eq_next h with ⟨-, rfl⟩ | ⟨hle, h⟩
    · exact { ends := .inl ⟨rfl, statusOk_doneStatus rfl, _, _, rfl⟩ }
    · rcases ite_eq_cases h with ⟨-, h⟩ | ⟨hne, h⟩ <;> cases h
      · exact { ends := .inl ⟨rfl, statusOk_doneStatus rfl, _, _, rfl⟩ }
      · exact { ends := .inr ⟨_, rfl, rfl,
          .of_start rfl rfl rfl ((BitVec.pos_iff_ne_zero _).2 hne) hle (by simp [JobOp.isRx]) nofun⟩ }
  case crcCheck =>
    rcases State.checkRange_eq_next h with ⟨-, rfl⟩ | ⟨hle, h⟩
    · exact { ends := .inl ⟨rfl, statusOk_doneStatus rfl, _, _, rfl⟩ }
    · rcases ite_eq_cases h with ⟨-, h⟩ | ⟨hne, h⟩ <;> cases h
      · exact { ends := .inl ⟨rfl, statusOk_done rfl fun _ => ⟨.inl rfl, rfl⟩, _, _, rfl⟩ }
      · exact { ends := .inr ⟨_, rfl, rfl, .of_start rfl rfl rfl ((BitVec.pos_iff_ne_zero _).2 hne) hle nofun nofun⟩ }
  case encode => exact startRule_of_execEncode hj h
  case declen => exact startRule_of_execDeclen hj h
  case rxBody =>
    rcases State.checkRange_eq_next h with ⟨-, rfl⟩ | ⟨hle, h⟩
    · exact { ends := .inl ⟨rfl, statusOk_doneStatus rfl, _, _, rfl⟩ }
    · cases h
      refine { ends := .inr ⟨_, rfl, rfl, .of_start rfl rfl rfl ?_ ⟨rfl, hle⟩ (fun _ => rfl) nofun⟩ }
      show 0 < (s.dlen.setWidth 32 + 4).toNat
      bv_omega
  case probe =>
    rcases State.checkRange_eq_next h with ⟨-, rfl⟩ | ⟨hle, h⟩
    · exact { ends := .inl ⟨rfl, statusOk_doneStatus rfl, _, _, rfl⟩ }
    · cases h
      exact { ends := .inr ⟨_, rfl, rfl, .of_start rfl rfl rfl (Nat.succ_pos 7) ⟨rfl, hle⟩ (fun _ => rfl) nofun⟩ }

theorem StartRule.status_op {i : Instr} {s t : State} (h : StartRule i s t) : t.status.op = i.fields.op := by
  rcases h.ends with ⟨-, -, r, m, hst⟩ | ⟨j, -, hop, hok⟩
  · rw [hst]; rfl
  · rw [hok.status, ← hop]; rfl

/-- While busy, a command other than DEADLINE is refused (R101). -/
theorem exec_of_busy {i : Instr} {s : State} {j : Job} (hj : s.job = some j) (hi : i ≠ .deadline) :
    exec i s = .next s.busError := by
  cases i <;> simp only [exec]
  case deadline => exact absurd rfl hi
  all_goals exact State.whenIdle_of_busy hj _ _

/-- What DEADLINE does: OKAY and nothing else, or the busy RX command's timeout rule (R113, R114). -/
theorem exec_deadline_eq_next {s t : State} (h : exec .deadline s = .next t) :
    t = s.respond .okay ∨ ∃ j, s.job = some j ∧ j.op.isRx = true ∧ t = rxTimeout j (s.respond .okay) := by
  simp only [exec, execDeadline, State.respond_job] at h
  split at h
  · cases h; exact .inl rfl
  · next j hj =>
    rcases ite_eq_cases h with ⟨hrx, h⟩ | ⟨-, h⟩ <;> cases h
    · exact .inr ⟨j, hj, hrx, rfl⟩
    · exact .inl rfl

/-- What a word presented at CMD while idle has done where it answers: nothing but respond, for DEADLINE; the start
rule of the command it decodes to; or the end of an illegal word (R100, R111, R114). -/
theorem presentWord_of_idle {w : Word} {s t : State} (hj : s.job = none) (h : presentWord w s = .next t) :
    (w = 0x000000FF ∧ t = s.respond .okay) ∨
    (∃ i, decode w = .ok i ∧ StartRule i s t) ∨
    t = { s with resp := some .okay, status := doneStatus (w.extractLsb' 0 8) .illegal } := by
  unfold presentWord at h
  split at h
  · next i hd =>
    by_cases hi : i = .deadline
    · subst hi
      rcases exec_deadline_eq_next h with rfl | ⟨j, hbusy, -⟩
      · exact .inl ⟨decode_eq_deadline hd, rfl⟩
      · rw [hj] at hbusy; cases hbusy
    · exact .inr (.inl ⟨i, hd, startRule_of_exec hj hi h⟩)
  · rw [illegalWord, State.whenIdle_of_idle hj] at h
    cases h
    refine .inr (.inr ?_)
    cases s; cases hj; rfl

/-- At the offset of CRC only a word write is no refusal and no read (R62). -/
theorem hostAccess_crc_offset {tr : Transfer} {s t : State} (h : hostAccess 0x10 tr s = .next t) :
    (∃ r, t = s.respond r) ∨ ∃ w, tr = .write (.word w) := by
  cases tr with
  | read n => cases n <;> cases h <;> exact .inl ⟨_, rfl⟩
  | write d =>
    cases d with
    | byte v => cases h; exact .inl ⟨_, rfl⟩
    | half v => cases h; exact .inl ⟨_, rfl⟩
    | word w => exact .inr ⟨w, rfl⟩

/-- What a host access that answers has done (R61 to R67, R100): the outcomes of `hostAccess_eq_next` and of a word at
CMD, each with what the outcome needs. -/
inductive HostEffect (off : Word) (tr : Transfer) (s : State) : State → Prop
  /-- nothing but respond -/
  | respond (r : Response) : HostEffect off tr s (s.respond r)
  /-- a DEADLINE has ended the busy RX command -/
  | timeout {j : Job} (busy : s.job = some j) (isRx : j.op.isRx = true) :
    HostEffect off tr s (rxTimeout j (s.respond .okay))
  /-- a write of ADDR, LEN or CLAIM -/
  | register (idle : s.job = none) (a l c : Word) :
    HostEffect off tr s { s with resp := some .okay, addr := a, len := l, claim := c }
  /-- a write of CRC -/
  | crc (idle : s.job = none) (offset : off = 0x10) {w : Word} (write : tr = .write (.word w)) (v : Word) :
    HostEffect off tr s { s with resp := some .okay, crc := v }
  /-- a write of BUF -/
  | window (idle : s.job = none) {a : Nat} {bs : List Byte} (inside : a + bs.length ≤ s.cfg.bufBytes) :
    HostEffect off tr s { s with resp := some .okay, buf := s.buf.place a bs }
  /-- a command other than DEADLINE accepted -/
  | command (idle : s.job = none) (offset : off = 0) {w : Word} (write : tr = .write (.word w)) {i : Instr}
    (decoded : decode w = .ok i) {t : State} (rule : StartRule i s t) : HostEffect off tr s t
  /-- an illegal word accepted -/
  | illegal (idle : s.job = none) (op : Byte) :
    HostEffect off tr s { s with resp := some .okay, status := doneStatus op .illegal }

theorem hostEffect_of_next {off : Word} {tr : Transfer} {s t : State} (h : hostAccess off tr s = .next t) :
    HostEffect off tr s t := by
  rcases hostAccess_eq_next h with ⟨r, rfl⟩ | ⟨hj, v, hreg⟩ | ⟨hj, a, bs, hle, rfl⟩ | ⟨w, hoff, htr, hw⟩
  · exact .respond r
  · rcases hreg with rfl | rfl | ⟨hoff, rfl⟩ | rfl
    · exact .register hj v s.len s.claim
    · exact .register hj s.addr v s.claim
    · rcases hostAccess_crc_offset (hoff ▸ h) with ⟨r, hr⟩ | ⟨w, hw⟩
      · exact hr ▸ .respond r
      · exact .crc hj hoff hw v
    · exact .register hj s.addr s.len v
  · exact .window hj hle
  · cases hj : s.job with
    | some j =>
      rcases hostAccess_busy hj h with ⟨r, rfl⟩ | ⟨-, -, hrx, rfl⟩
      · exact .respond r
      · exact .timeout hj hrx
    | none =>
      rcases presentWord_of_idle hj hw with ⟨-, rfl⟩ | ⟨i, hd, hrule⟩ | rfl
      · exact .respond _
      · exact .command hj hoff htr hd hrule
      · exact .illegal hj _

/-- Settles O48: DEADLINE and a refused command by what they do, an accepted one by the frame of its start rule. -/
theorem commandWritesLeaveTheRestUnchanged : Obligations.CommandWritesLeaveTheRestUnchanged := by
  intro i s t h
  by_cases hi : i = .deadline
  · subst hi
    rcases exec_deadline_eq_next h with rfl | ⟨j, -, -, rfl⟩
    · simp
    · obtain ⟨k, hk⟩ := rxTimeout_eq j (s.respond .okay)
      simp [hk]
  · cases hj : s.job with
    | some j =>
      rw [exec_of_busy hj hi] at h
      cases h
      simp [hj]
    | none =>
      have hrule := startRule_of_exec hj hi h
      have hframe {α : Type} (f : State → α) := congrArg f hrule.frame
      exact ⟨hframe State.addr, hframe State.len, hframe State.claim, hframe State.rxEos, hframe State.txOut,
        hframe State.txReady, hframe State.cfg, hframe State.agenda, fun x => hframe (·.buf.read x), hrule.rxq,
        hrule.dlen, hrule.ver, fun hx => hrule.rxCnt (Instr.startsRxCnt_eq_false hx), hrule.txCnt,
        fun hb hc hx => hrule.crc (Instr.startsCrc_eq_false hb hc hx), fun hbusy => absurd rfl hbusy⟩

/-- Settles O8: by the two ends of a start rule, at once with DONE = 1 or with a job and STATUS a running command's. -/
theorem acceptanceDescribesTheNewCommand : Obligations.AcceptanceDescribesTheNewCommand := by
  intro s t w rest hj hw ha h
  rw [step_cmdWrite ha] at h
  rcases presentWord_of_idle (s := { s with agenda := rest }) hj h with ⟨hdl, -⟩ | ⟨i, hd, hrule⟩ | rfl
  · exact absurd hdl hw
  · have hop : i.fields.op = w.extractLsb' 0 8 := congrArg CommandWord.op (fields_of_decode hd)
    have hresp : t.resp = some .okay := congrArg State.resp hrule.frame
    have hagenda : t.agenda = rest := congrArg State.agenda hrule.frame
    refine ⟨hrule.status_op.trans hop, ?_, ?_, ?_, hresp, hagenda⟩
    all_goals rcases hrule.ends with ⟨hnone, -, r, m, hst⟩ | ⟨j, hsome, hcode, hok⟩
    · simp [hst, doneStatus]
    · simp [hok.status, busyStatus]
    · simp [hst, hnone, doneStatus]
    · simp [hok.status, hsome, busyStatus]
    · simp [hnone]
    · simp [hok.status, hcode, hop]
  · simp [doneStatus, hj]

end Machine
end Sys2Proof
end

section
/-! What an engine step does, said once for every job (R104), and what a step of any agent therefore does to CRC
(R131) and to the ports (R40 to R42). -/

namespace Sys2Proof.Machine

/-! An RX command cut short, by EOS or by a DEADLINE. -/

/-- A close rule changes only the job and STATUS (R161). -/
theorem rxClose_frame (j : Job) (s : State) :
    rxClose j s = { s with job := none, status := (rxClose j s).status } := by
  unfold rxClose
  split <;> rfl

/-- A timeout rule changes only the job and STATUS (R161). -/
theorem rxTimeout_frame (j : Job) (s : State) :
    rxTimeout j s = { s with job := none, status := (rxTimeout j s).status } := by
  unfold rxTimeout
  split <;> rfl

theorem rxTimeout_status (j : Job) (s : State) : (rxTimeout j s).status = { s.status with
    done := true, result := .timedOut, cls := if j.op = .probe then .notDetected else s.status.cls } := by
  unfold rxTimeout
  split
  · next h => rw [if_pos h]; rfl
  · next h => rw [if_neg h]; rfl

theorem rxClose_status (j : Job) (s : State) : (rxClose j s).status = { s.status with
    done := true, result := .closed, cls := if j.op = .probe then .notDetected else s.status.cls } := by
  unfold rxClose
  split
  · next h => rw [if_pos h]; rfl
  · next h => rw [if_neg h]; rfl

/-- Only PROBE's close rule classifies (R161, R183). -/
theorem rxClose_of_ne_probe {j : Job} (h : j.op ≠ .probe) (s : State) : rxClose j s = s.finish .closed := by
  unfold rxClose
  split
  · next hop => exact absurd hop h
  · rfl

/-- Only PROBE's timeout rule classifies (R161, R183). -/
theorem rxTimeout_of_ne_probe {j : Job} (h : j.op ≠ .probe) (s : State) : rxTimeout j s = s.finish .timedOut := by
  unfold rxTimeout
  split
  · next hop => exact absurd hop h
  · rfl

/-! The engine. -/

/-- What a byte rule changes: BUF, and CRC only for RXBODY (R162 to R165, R181). -/
theorem rxByteRule_frame {j j' : Job} {b : Byte} {s u : State} (h : rxByteRule j b s = .ok (j', u)) :
    (∃ x, j' = { j with acc := x }) ∧ u = { s with buf := u.buf, crc := u.crc } ∧ (u.crc = s.crc ∨ j.op = .rxBody) := by
  obtain ⟨hj, ⟨a, -, -, -, rfl | ⟨hop, rfl⟩⟩ | ⟨-, rfl⟩⟩ := rxByteRule_eq_ok h
  · exact ⟨hj, rfl, .inl rfl⟩
  · exact ⟨hj, rfl, .inr hop⟩
  · exact ⟨hj, rfl, .inl rfl⟩

/-- What an engine step of the job `j` does to the state `s` (R104). As in `StartRule`, `rfl` and `simp` close the
fields that hold by the written-out next state. -/
structure EngineRule (j : Job) (s t : State) : Prop where
  /-- every other field of the state is unchanged -/
  frame : t = { s with
    status := t.status
    job := t.job
    crc := t.crc
    buf := t.buf
    claim := t.claim
    dlen := t.dlen
    ver := t.ver
    rxCnt := t.rxCnt
    txCnt := t.txCnt
    rxq := t.rxq
    txOut := t.txOut } := by rfl
  crc : t.crc = s.crc ∨ j.op ∈ [JobOp.crcBuf, .crcCalc, .crcCheck, .encode, .rxBody] := by simp
  rxq : t.rxq = s.rxq ∨ (j.op.isRx = true ∧ ∃ b, s.rxq = b :: t.rxq) := by simp
  txOut : t.txOut = s.txOut ∨ (s.txReady = true ∧ j.op = .encode ∧ ∃ b, t.txOut = s.txOut ++ [b]) := by simp

theorem engineRule_of_checksumStep {j : Job} {s t : State} (hop : j.op ∈ [JobOp.crcBuf, .crcCalc, .crcCheck])
    (h : checksumStep j s = .next t) : EngineRule j s t := by
  have hcrc : j.op ∈ [JobOp.crcBuf, .crcCalc, .crcCheck, .encode, .rxBody] :=
    List.mem_append_left [JobOp.encode, .rxBody] hop
  obtain ⟨b, -, ⟨-, -, rfl⟩ | ⟨-, -, rfl⟩ | ⟨-, rfl⟩⟩ := checksumStep_eq_next h <;>
    exact { crc := .inr hcrc }

theorem engineRule_of_encodeStep {j : Job} {s t : State} (hop : j.op = .encode) (h : encodeStep j s = .next t) :
    EngineRule j s t := by
  rcases encodeStep_eq_next h with ⟨-, rfl⟩ | ⟨hrdy, b, u, -, hu, ht⟩
  · exact {}
  · have hu : u = { s with crc := u.crc, txCnt := u.txCnt, txOut := s.txOut ++ [b] } := by
      rw [hu]; split <;> rfl
    rw [hu] at ht
    rcases ht with ⟨-, rfl⟩ | ⟨-, rfl⟩ <;>
      exact { crc := .inr (by simp [hop]), txOut := .inr ⟨hrdy, hop, b, rfl⟩ }

theorem engineRule_of_rxStep {j : Job} {s t : State} (hop : j.op.isRx = true) (h : rxStep j s = .next t) :
    EngineRule j s t := by
  rcases rxStep_eq_next h with ⟨-, rfl⟩ | ⟨-, rfl⟩ | ⟨b, j', u, hb, hrule, ht⟩
  · exact {}
  · obtain ⟨k, hk⟩ := rxClose_eq j s
    rw [hk]
    exact {}
  · obtain ⟨q, hq⟩ := State.rxHead_eq_byte.1 hb
    obtain ⟨-, hu, hcrc⟩ := rxByteRule_frame hrule
    have hcrc : u.crc = s.crc ∨ j.op ∈ [JobOp.crcBuf, .crcCalc, .crcCheck, .encode, .rxBody] :=
      hcrc.imp_right fun e => by simp [e]
    have hrxq : s.rxq = b :: s.rxTake.rxq := by simp [hq]
    rw [hu] at ht
    rcases ht with ⟨-, ht⟩ | ⟨-, rfl⟩
    · obtain ⟨v, d, c, m, k, rfl⟩ := rxComplete_eq_next ht
      exact { crc := hcrc, rxq := .inr ⟨hop, b, hrxq⟩ }
    · exact { crc := hcrc, rxq := .inr ⟨hop, b, hrxq⟩ }

/-- An engine step that answers changed nothing, with no job, or followed the rule of the busy job. -/
theorem engineRule_of_next {s t : State} (h : engineStep s = .next t) :
    (s.job = none ∧ t = s) ∨ ∃ j, s.job = some j ∧ EngineRule j s t := by
  rcases engineStep_eq_next h with hidle | ⟨j, hj, ⟨hop, h⟩ | ⟨hop, h⟩ | ⟨hop, h⟩⟩
  · exact .inl hidle
  · exact .inr ⟨j, hj, engineRule_of_checksumStep hop h⟩
  · exact .inr ⟨j, hj, engineRule_of_encodeStep hop h⟩
  · exact .inr ⟨j, hj, engineRule_of_rxStep hop h⟩

/-! CRC. -/

/-- A host access changes CRC only by a write of CRC or by a command whose start rule R131 lists, each a word write
while idle. -/
theorem hostAccess_crc {off : Word} {tr : Transfer} {s t : State} (h : hostAccess off tr s = .next t)
    (hne : t.crc ≠ s.crc) :
    s.job = none ∧ ∃ w, tr = .write (.word w) ∧
      (off = 0x10 ∨ (off = 0x00 ∧ t.status.op ∈ [0x01#8, 0x02#8, 0x04#8, 0x05#8, 0x10#8, 0x22#8])) := by
  cases hostEffect_of_next h with
  | timeout => exact absurd (congrArg State.crc (rxTimeout_frame ..) :) hne
  | crc idle offset write v => exact ⟨idle, _, write, .inl offset⟩
  | command idle offset write decoded rule =>
    refine ⟨idle, _, write, .inr ⟨offset, ?_⟩⟩
    rw [rule.status_op]
    exact Instr.op_of_startsCrc (by_contra fun hc => hne (rule.crc (by simpa using hc)))
  | respond | register | window | illegal => exact absurd rfl hne

/-- Settles O50: of the agents only the host, the engine and the reset input reach CRC, and each does so by a named
writer. -/
theorem onlyTheNamedWritersChangeCrc : Obligations.OnlyTheNamedWritersChangeCrc := by
  intro s t h hne
  rcases step_eq_next h with ⟨hnext, heng⟩ | ⟨e, rest, ha, ⟨off, tr, he, hhost⟩ | ⟨addr, tr, -, rfl⟩ | ⟨b, -, rfl⟩ |
    ⟨-, rfl⟩ | ⟨v, -, rfl⟩ | ⟨rfl, rfl⟩⟩
  · rcases engineRule_of_next heng with ⟨-, rfl⟩ | ⟨j, hj, hrule⟩
    · exact absurd rfl hne
    · exact .inr (.inr ⟨hnext, j, hj, hrule.crc.resolve_left hne⟩)
  · obtain ⟨hidle, w, hw, hoff⟩ := hostAccess_crc hhost hne
    exact .inr (.inl ⟨e, rest, ha, hidle, off, tr, he.imp_right fun he => ⟨_, he, rfl⟩, w, hw, hoff⟩)
  · exact absurd rfl hne
  · exact absurd (State.linkAppend_crc ..) hne
  · exact absurd rfl hne
  · exact absurd rfl hne
  · exact .inl ⟨rest, ha⟩

/-! The ports. -/

/-- A host access leaves RXQ, or is the write of RXFLUSH's word to CMD while idle that empties it (R167). -/
theorem hostAccess_rxq {off : Word} {tr : Transfer} {s t : State} (h : hostAccess off tr s = .next t) :
    t.rxq = s.rxq ∨
    (off = 0 ∧ tr = .write (.word 0x00000023) ∧ s.job = none ∧ t.rxq = [] ∧ t.status = doneStatus 0x23 .ok ∧
      t.rxCnt = BitVec.ofNat 32 s.rxq.length) := by
  cases hostEffect_of_next h with
  | timeout => exact .inl (congrArg State.rxq (rxTimeout_frame ..) :)
  | @command idle offset w write i decoded t rule =>
    by_cases hi : i = .rxFlush
    · subst hi
      obtain rfl := eq_encode_of_decode decoded
      exact .inr ⟨offset, write, idle, rule.flushed rfl⟩
    · exact .inl (rule.rxq hi)
  | respond | crc | register | window | illegal => exact .inl rfl

/-- Settles O52: the engine takes the first byte, RXFLUSH all of them; every other step appends what is delivered. -/
theorem rxQueueKeepsItsOrder : Obligations.RxQueueKeepsItsOrder := by
  intro s t h
  rcases step_eq_next h with ⟨hnext, heng⟩ | ⟨e, rest, ha, ⟨off, tr, he, hhost⟩ | ⟨addr, tr, rfl, rfl⟩ | ⟨b, rfl, rfl⟩ |
    ⟨rfl, rfl⟩ | ⟨v, rfl, rfl⟩ | ⟨rfl, rfl⟩⟩
  · rcases engineRule_of_next heng with ⟨-, rfl⟩ | ⟨j, hj, hrule⟩
    · exact .inl (by simp [delivered_of_engineNext hnext])
    · rcases hrule.rxq with hq | ⟨hrx, b, hq⟩
      · exact .inl (by simp [delivered_of_engineNext hnext, hq])
      · exact .inr (.inl ⟨hnext, b, j, hj, hrx, hq⟩)
  · rcases hostAccess_rxq hhost with hq | ⟨rfl, rfl, hidle, hq, hst, hcnt⟩
    · refine .inl ?_
      rcases he with rfl | rfl <;> simp [State.delivered, ha, hq]
    · refine .inr (.inr ⟨⟨rest, ?_⟩, hidle, hq, hst, hcnt⟩)
      rcases he with rfl | rfl
      · exact .inl ha
      · exact .inr (by simpa using ha)
  · exact .inl (by simp [State.delivered, ha])
  · refine .inl ?_
    cases hEos : s.rxEos <;> simp [State.delivered, ha, hEos]
  · exact .inl (by simp [State.delivered, ha])
  · exact .inl (by simp [State.delivered, ha])
  · exact .inl (by simp [State.delivered, ha])

/-- A host access changes nothing of the TX port and leaves RXEOS (R205, R216). -/
theorem hostAccess_keeps_ports {off : Word} {tr : Transfer} {s t : State} (h : hostAccess off tr s = .next t) :
    t.rxEos = s.rxEos ∧ t.txOut = s.txOut ∧ t.txReady = s.txReady := by
  cases hostEffect_of_next h with
  | @timeout j =>
    have hframe := rxTimeout_frame j (s.respond .okay)
    exact ⟨(congrArg State.rxEos hframe :), (congrArg State.txOut hframe :), (congrArg State.txReady hframe :)⟩
  | command _ _ _ _ rule =>
    exact ⟨(congrArg State.rxEos rule.frame :), (congrArg State.txOut rule.frame :),
      (congrArg State.txReady rule.frame :)⟩
  | respond | crc | register | window | illegal => exact ⟨rfl, rfl, rfl⟩

/-- No step clears RXEOS (R41). -/
theorem step_keeps_rxEos {s t : State} (h : step s = .next t) (hEos : s.rxEos = true) : t.rxEos = true := by
  rcases step_eq_next h with ⟨-, heng⟩ | ⟨e, rest, -, ⟨off, tr, -, hhost⟩ | ⟨addr, tr, -, rfl⟩ | ⟨b, -, rfl⟩ |
    ⟨-, rfl⟩ | ⟨v, -, rfl⟩ | ⟨-, rfl⟩⟩
  · rcases engineRule_of_next heng with ⟨-, rfl⟩ | ⟨j, -, hrule⟩
    · exact hEos
    · exact (congrArg State.rxEos hrule.frame).trans hEos
  · obtain ⟨hkeep, -, -⟩ := hostAccess_keeps_ports hhost
    exact hkeep.trans hEos
  · exact hEos
  · simpa using hEos
  · rfl
  · exact hEos
  · exact hEos

/-- After end-of-stream the link delivers nothing (R41). -/
theorem delivered_of_rxEos {s : State} (hEos : s.rxEos = true) : s.delivered = [] := by
  unfold State.delivered
  split
  · simp [hEos]
  · rfl

/-- A busy RX command's engine step is the shared RX step (R160). -/
theorem engineStep_of_isRx {s : State} {j : Job} (hj : s.job = some j) (hrx : j.op.isRx = true) :
    engineStep s = rxStep j s := by
  unfold engineStep
  cases hop : j.op <;> simp_all [JobOp.isRx]

/-- Settles O53: after EOS nothing is delivered, so what O52 says of RXQ leaves a suffix of it. -/
theorem endOfStreamIsFinalAndLast : Obligations.EndOfStreamIsFinalAndLast := by
  refine ⟨fun s t h hEos => ⟨step_keeps_rxEos h hEos, ?_⟩, fun s b q hq => State.rxHead_eq_byte.2 ⟨q, hq⟩, ?_⟩
  · rcases rxQueueKeepsItsOrder s t h with hq | ⟨-, b, j, -, -, hq⟩ | ⟨-, -, hq, -⟩
    · simp [hq, delivered_of_rxEos hEos]
    · exact hq ▸ List.suffix_cons b t.rxq
    · exact hq ▸ List.nil_suffix
  · intro s j hj hrx hEos
    obtain ⟨k, hk⟩ := rxClose_eq j s
    refine ⟨_, by rw [engineStep_of_isRx hj hrx, rxStep, hEos], ?_⟩
    simp [hk]

/-- Settles O54: the host and a reset leave the TX port, the engine only appends to it, and TXREADY is the TX link's. -/
theorem txOutGrowsOnlyWhenReady : Obligations.TxOutGrowsOnlyWhenReady := by
  intro s t h
  rcases step_eq_next h with ⟨hnext, heng⟩ | ⟨e, rest, ha, ⟨off, tr, he, hhost⟩ | ⟨addr, tr, rfl, rfl⟩ | ⟨b, rfl, rfl⟩ |
    ⟨rfl, rfl⟩ | ⟨v, rfl, rfl⟩ | ⟨rfl, rfl⟩⟩
  · have hother : ∀ v rest, s.agenda ≠ .txReady v :: rest := by
      rcases hnext with ha | ⟨rest, ha⟩ <;> simp [ha]
    rcases engineRule_of_next heng with ⟨-, rfl⟩ | ⟨j, hj, hrule⟩
    · exact ⟨.inl rfl, .inl rfl, fun v rest ha => absurd ha (hother v rest)⟩
    · refine ⟨hrule.txOut.imp_right fun ⟨hrdy, hop, hb⟩ => ⟨hnext, hrdy, ⟨j, hj, hop⟩, hb⟩,
        .inl (congrArg State.txReady hrule.frame :), fun v rest ha => absurd ha (hother v rest)⟩
  · obtain ⟨-, hout, hrdy⟩ := hostAccess_keeps_ports hhost
    refine ⟨.inl hout, .inl hrdy, fun v rest' ha' => ?_⟩
    rcases he with rfl | rfl <;> simp [ha] at ha'
  all_goals simp [ha]

end Sys2Proof.Machine
end

section
/-! The invariant, step by step: first what each part of it depends on, then each agent's step (R22 to R26, R31, R35,
R36). -/

namespace Sys2Proof.Machine

/-! What the invariant depends on. -/

theorem Job.fits_congr {j j' : Job} {s t : State} (hop : j'.op = j.op) (ha : j'.a = j.a) (hn : j'.n = j.n)
    (hcfg : t.cfg = s.cfg) (hdlen : t.dlen = s.dlen) : j'.fits t = j.fits s := by
  simp only [Job.fits, hop, ha, hn, hcfg, hdlen]

theorem JobOk.congr {s t : State} {j : Job} (h : JobOk s j) (hcfg : t.cfg = s.cfg) (hstatus : t.status = s.status)
    (hdlen : t.dlen = s.dlen) (hrx : t.rxCnt = s.rxCnt) (htx : t.txCnt = s.txCnt) (hbuf : t.buf = s.buf) :
    JobOk t j where
  status := hstatus.trans h.status
  progress := h.progress
  fits := (Job.fits_congr rfl rfl rfl hcfg hdlen).mpr h.fits
  rxCounted hop := hrx.trans (h.rxCounted hop)
  txCounted hop := htx.trans (h.txCounted hop)
  defined := hbuf ▸ h.defined
  assembled := h.assembled

/-- The invariant is about BUF, the job, STATUS, DLEN and the two counts: what leaves them keeps it. -/
theorem Inv.congr {s t : State} (h : Inv s) (hcfg : t.cfg = s.cfg := by simp) (hstatus : t.status = s.status := by simp)
    (hdlen : t.dlen = s.dlen := by simp) (hrx : t.rxCnt = s.rxCnt := by simp) (htx : t.txCnt = s.txCnt := by simp)
    (hbuf : t.buf = s.buf := by simp) (hjob : t.job = s.job := by simp) : Inv t where
  canonical := hbuf ▸ h.canonical
  bounded := hbuf ▸ hcfg ▸ h.bounded
  busyOk j hj := (h.busyOk j (hjob ▸ hj)).congr hcfg hstatus hdlen hrx htx hbuf
  idleOk hj := hstatus ▸ h.idleOk (hjob ▸ hj)

theorem Inv.of_idle {s : State} (hwf : s.buf.wf) (hin : s.buf.within s.cfg.bufBytes) (hj : s.job = none)
    (hst : StatusOk s.status) : Inv s :=
  ⟨hwf, hin, fun j h => (by rw [hj] at h; cases h), fun _ => hst⟩

theorem Inv.of_busy {s : State} {j : Job} (hwf : s.buf.wf) (hin : s.buf.within s.cfg.bufBytes) (hj : s.job = some j)
    (hok : JobOk s j) : Inv s :=
  ⟨hwf, hin, fun j' h => (by rw [hj] at h; cases h; exact hok), fun h => (by rw [hj] at h; cases h)⟩

/-! How a job's STATUS may end (R201, R24, R25). -/

theorem statusOk_probe {c : ProbeClass} {r : Result} (hc : c ≠ .none) (hmay : mayReport 0x20 r = true)
    (hr : r ≠ .range ∧ r ≠ .illegal) (hdet : c = .detected → r = .ok) : StatusOk ⟨true, c, r, false, 0x20⟩ :=
  ⟨nofun, fun _ => hmay, fun _ => ⟨fun _ => ⟨rfl, hr⟩, fun _ => hc⟩, hdet, nofun⟩

/-- An RX command cut short, CLOSED or TIMEDOUT, leaves a STATUS the invariant admits (R161, R183). -/
theorem statusOk_cutShort {op : JobOp} {r : Result} (hrx : op.isRx = true) (hr : r = .closed ∨ r = .timedOut) :
    StatusOk { busyStatus op.code with
      done := true, result := r, cls := if op = .probe then .notDetected else .none } := by
  cases op <;> cases hrx
  case probe => rcases hr with rfl | rfl <;> exact statusOk_probe nofun rfl ⟨nofun, nofun⟩ nofun
  all_goals rcases hr with rfl | rfl <;> exact statusOk_doneStatus rfl

theorem statusOk_rxTimeout {s : State} {j : Job} (hst : s.status = busyStatus j.op.code) (hrx : j.op.isRx = true) :
    StatusOk (rxTimeout j s).status := by
  rw [rxTimeout_status, hst]
  exact statusOk_cutShort hrx (.inr rfl)

theorem statusOk_rxClose {s : State} {j : Job} (hst : s.status = busyStatus j.op.code) (hrx : j.op.isRx = true) :
    StatusOk (rxClose j s).status := by
  rw [rxClose_status, hst]
  exact statusOk_cutShort hrx (.inl rfl)

/-- A completed RX command leaves a STATUS the invariant admits (R163, R166, R182). -/
theorem statusOk_rxComplete {s t : State} {j : Job} (hst : s.status = busyStatus j.op.code) (hrx : j.op.isRx = true)
    (h : rxComplete j s = .next t) : StatusOk t.status := by
  cases hop : j.op <;> simp only [hop, JobOp.isRx, Bool.false_eq_true] at hrx <;> simp only [rxComplete, hop] at h
  case probe =>
    unfold probeComplete at h
    split at h
    · cases h
    · split at h <;> cases h <;> simp only [State.finish_status, State.setClass_status, hst, hop]
      · exact statusOk_probe nofun rfl ⟨nofun, nofun⟩ fun _ => rfl
      · exact statusOk_probe nofun rfl ⟨nofun, nofun⟩ fun _ => rfl
  case rxHdr | rxRaw =>
    cases h
    simp only [State.finish_status, hst, hop]
    exact statusOk_doneStatus rfl
  case rxBody =>
    cases h
    simp only [State.finish_status, State.setMatch_status, hst, hop]
    exact statusOk_done rfl fun _ => ⟨.inr rfl, rfl⟩

/-! A job that goes on. -/

/-- J.i stays below J.n, so counting one byte more does not wrap (R36). -/
theorem toNat_succ_of_lt {i n : Word} (h : i.toNat < n.toNat) : (i + 1).toNat = i.toNat + 1 := by
  bv_omega

/-- A byte that is not the last leaves J.i below J.n (R36). -/
theorem toNat_succ_lt_of_ne {i n : Word} (h : i.toNat < n.toNat) (hne : i + 1 ≠ n) : (i + 1).toNat < n.toNat := by
  bv_omega

/-- A job that has not moved its last byte goes on with its next one. -/
theorem JobOk.advance {s u : State} {j : Job} {x : Word} (h : JobOk s j) (hne : j.i + 1 ≠ j.n)
    (hstatus : u.status = s.status) (hcfg : u.cfg = s.cfg) (hdlen : u.dlen = s.dlen)
    (hrx : j.op.isRx = true → u.rxCnt = s.rxCnt + 1) (htx : j.op = .encode → u.txCnt = s.txCnt + 1)
    (hdef : ∀ k, k < Job.stored { j with acc := x, i := j.i + 1 } → (u.buf.read (j.a.toNat + k)).isSome = true)
    (hacc : j.op = .rxHdr → x.toNat < 2 ^ (8 * (j.i.toNat + 1))) : JobOk u { j with acc := x, i := j.i + 1 } where
  status := hstatus.trans h.status
  progress := toNat_succ_lt_of_ne h.progress hne
  fits := (Job.fits_congr rfl rfl rfl hcfg hdlen).mpr h.fits
  rxCounted hop := (hrx hop).trans (by rw [h.rxCounted hop])
  txCounted hop := (htx hop).trans (by rw [h.txCounted hop])
  defined := hdef
  assembled hop := toNat_succ_of_lt h.progress ▸ hacc hop

/-! The engine's steps. -/

/-- While a job is in progress MATCH is 0 (R102). -/
theorem JobOk.unmatched {s : State} {j : Job} (h : JobOk s j) (hm : s.status.matched = true) : j.op = .crcCheck := by
  rw [h.status] at hm
  cases hm

/-- A checksum job or an ENCODE finished with OK, MATCH only for CRC_CHECK, leaves a STATUS the invariant admits. -/
theorem StatusOk.of_finished {st : Status} {j : Job} {m : Bool} (hst : st = busyStatus j.op.code)
    (hop : j.op.isRx = false) (hm : m = true → j.op = .crcCheck) :
    StatusOk { st with done := true, result := .ok, matched := m } := by
  rw [hst]
  refine statusOk_done ?_ fun h => ⟨.inl (by rw [hm h]; rfl), rfl⟩
  cases hj : j.op <;> simp only [hj, JobOp.isRx, Bool.true_eq_false] at hop <;> rfl

/-- Only RX jobs store bytes. -/
theorem Job.stored_of_not_isRx {j : Job} (h : j.op.isRx = false) : j.stored = 0 := by
  unfold Job.stored
  cases hop : j.op <;> simp only [hop, JobOp.isRx, Bool.true_eq_false] at h <;> rfl

theorem Job.defined_of_not_isRx {s : State} {j : Job} (h : j.op.isRx = false) :
    ∀ k, k < j.stored → (s.buf.read (j.a.toNat + k)).isSome = true := by
  intro k hk
  rw [Job.stored_of_not_isRx h] at hk
  cases hk

theorem Inv.checksumStep {s t : State} {j : Job} (hinv : Inv s) (hj : s.job = some j)
    (hop : j.op ∈ [JobOp.crcBuf, .crcCalc, .crcCheck]) (h : checksumStep j s = .next t) : Inv t := by
  have hok := hinv.busyOk j hj
  have hrx : j.op.isRx = false := by cases hc : j.op <;> simp [hc, JobOp.isRx] at hop ⊢
  obtain ⟨b, -, ⟨-, hcheck, rfl⟩ | ⟨-, -, rfl⟩ | ⟨hne, rfl⟩⟩ := checksumStep_eq_next h
  · exact .of_idle hinv.canonical hinv.bounded rfl
      (StatusOk.of_finished (st := s.status) hok.status hrx fun _ => hcheck)
  · exact .of_idle hinv.canonical hinv.bounded rfl (StatusOk.of_finished (st := s.status) hok.status hrx hok.unmatched)
  · refine .of_busy hinv.canonical hinv.bounded rfl (hok.advance (x := j.acc) hne rfl rfl rfl ?_ ?_ ?_ ?_)
    · simp [hrx]
    · intro hc; simp [hc] at hop
    · exact Job.defined_of_not_isRx hrx
    · intro hc; simp [hc] at hop

theorem Inv.encodeStep {s t : State} {j : Job} (hinv : Inv s) (hj : s.job = some j) (hop : j.op = .encode)
    (h : encodeStep j s = .next t) : Inv t := by
  have hok := hinv.busyOk j hj
  have hrx : j.op.isRx = false := by simp [hop, JobOp.isRx]
  rcases encodeStep_eq_next h with ⟨-, rfl⟩ | ⟨-, b, u, -, hu, ht⟩
  · exact hinv
  · have hu : u = { s with crc := u.crc, txCnt := s.txCnt + 1, txOut := u.txOut } := by
      rw [hu]; split <;> rfl
    rw [hu] at ht
    rcases ht with ⟨-, rfl⟩ | ⟨hne, rfl⟩
    · exact .of_idle hinv.canonical hinv.bounded rfl
        (StatusOk.of_finished (st := s.status) hok.status hrx hok.unmatched)
    · refine .of_busy hinv.canonical hinv.bounded rfl (hok.advance (x := j.acc) hne rfl rfl rfl ?_ ?_ ?_ ?_)
      · simp [hrx]
      · exact fun _ => rfl
      · exact Job.defined_of_not_isRx hrx
      · simp [hop]

/-- The next byte an RX job stores goes to the end of those it has stored; a byte that is assembled adds none. -/
theorem Job.stored_succ {j : Job} {x : Word} (hi : (j.i + 1).toNat = j.i.toNat + 1) :
    (j.storeAt = some (j.a.toNat + j.stored) ∧ Job.stored { j with acc := x, i := j.i + 1 } = j.stored + 1) ∨
    (j.storeAt = none ∧ Job.stored { j with acc := x, i := j.i + 1 } = j.stored) := by
  unfold Job.storeAt Job.stored
  have hlen (op : JobOp) : Job.textLen { j with op := op, acc := x, i := j.i + 1 } = j.textLen := rfl
  cases j.op <;> simp only [hi, hlen]
  case rxBody =>
    by_cases hlt : j.i.toNat < j.textLen
    · exact .inl ⟨by rw [if_pos hlt, Nat.min_eq_left hlt.le], by omega⟩
    · exact .inr ⟨if_neg hlt, by omega⟩
  all_goals simp

/-- A byte rule keeps BUF's form, and the bytes stored with it are defined (R31). -/
theorem rxByteRule_buf {s u : State} {j j' : Job} {b : Byte} (hinv : Inv s) (hok : JobOk s j)
    (h : rxByteRule j b s.rxTake = .ok (j', u)) :
    u.buf.wf ∧ u.buf.within u.cfg.bufBytes ∧
    ∀ k, k < Job.stored { j' with i := j'.i + 1 } → (u.buf.read (j.a.toNat + k)).isSome = true := by
  obtain ⟨⟨x, rfl⟩, heff⟩ := rxByteRule_eq_ok h
  rcases heff with ⟨a, hat, hlt, -, hu⟩ | ⟨hat, rfl⟩
  · obtain ⟨hbuf, hcfg⟩ : u.buf = s.buf.write a b ∧ u.cfg = s.cfg := by
      rcases hu with rfl | ⟨-, rfl⟩ <;> exact ⟨rfl, rfl⟩
    rw [hbuf, hcfg]
    refine ⟨Memory.write_wf hinv.canonical a b, Memory.write_within hinv.bounded hlt b, fun k hk => ?_⟩
    rcases Job.stored_succ (x := x) (toNat_succ_of_lt hok.progress) with ⟨hat', hst⟩ | ⟨hat', -⟩
    · rw [hat] at hat'
      cases hat'
      rw [hst] at hk
      rw [Memory.read_write]
      split
      · rfl
      · exact hok.defined k (by omega)
    · rw [hat] at hat'; cases hat'
  · refine ⟨hinv.canonical, hinv.bounded, fun k hk => ?_⟩
    rcases Job.stored_succ (x := x) (toNat_succ_of_lt hok.progress) with ⟨hat', -⟩ | ⟨-, hst⟩
    · rw [hat] at hat'; cases hat'
    · exact hok.defined k (hst ▸ hk)

theorem toNat_bytePlaced_lt (b : Byte) (k : Nat) : (bytePlaced b k).toNat < 2 ^ (8 * (k + 1)) := by
  have hb : b.toNat * 2 ^ (8 * k) < 2 ^ 8 * 2 ^ (8 * k) := Nat.mul_lt_mul_of_pos_right b.isLt (Nat.two_pow_pos _)
  calc (bytePlaced b k).toNat ≤ b.toNat * 2 ^ (8 * k) := by
        simp only [bytePlaced, BitVec.toNat_shiftLeft, Nat.shiftLeft_eq, BitVec.toNat_setWidth]
        exact (Nat.mod_le _ _).trans (Nat.mul_le_mul_right _ (Nat.mod_le _ _))
    _ < 2 ^ (8 * (k + 1)) := by rw [Nat.mul_succ, Nat.add_comm, Nat.pow_add]; exact hb

/-- RXHDR's assembly register stays within the bytes taken (R163). -/
theorem rxByteRule_assembled {s u : State} {j j' : Job} {b : Byte} (hok : JobOk s j) (hop : j.op = .rxHdr)
    (h : rxByteRule j b s.rxTake = .ok (j', u)) : j'.acc.toNat < 2 ^ (8 * (j.i.toNat + 1)) := by
  simp only [rxByteRule, hop, rxHdrByte] at h
  cases h
  rw [BitVec.toNat_or]
  refine Nat.or_lt_two_pow ((hok.assembled hop).trans_le ?_) (toNat_bytePlaced_lt b j.i.toNat)
  exact Nat.pow_le_pow_right (by decide) (by omega)

theorem Inv.rxStep {s t : State} {j : Job} (hinv : Inv s) (hj : s.job = some j) (hrx : j.op.isRx = true)
    (h : rxStep j s = .next t) : Inv t := by
  have hok := hinv.busyOk j hj
  rcases rxStep_eq_next h with ⟨-, rfl⟩ | ⟨-, rfl⟩ | ⟨b, j', u, -, hrule, ht⟩
  · exact hinv
  · have hst := statusOk_rxClose hok.status hrx
    rw [rxClose_frame]
    exact .of_idle hinv.canonical hinv.bounded rfl hst
  · obtain ⟨hwf, hin, hdef⟩ := rxByteRule_buf hinv hok hrule
    obtain ⟨⟨x, rfl⟩, hframe, -⟩ := rxByteRule_frame hrule
    have hstatus : u.status = s.status := by rw [hframe]; rfl
    rcases ht with ⟨-, ht⟩ | ⟨hne, rfl⟩
    · have hst := statusOk_rxComplete (j := { j with acc := x, i := j.i + 1 }) (hstatus.trans hok.status) hrx ht
      obtain ⟨v, d, c, m, k, rfl⟩ := rxComplete_eq_next ht
      exact .of_idle hwf hin rfl hst
    · exact .of_busy hwf hin rfl (hok.advance hne hstatus (by rw [hframe]; rfl) (by rw [hframe]; rfl)
        (fun _ => by rw [hframe]; rfl) (fun he => by simp [he, JobOp.isRx] at hrx) hdef
        fun hop => rxByteRule_assembled hok hop hrule)

theorem Inv.engineStep {s t : State} (hinv : Inv s) (h : engineStep s = .next t) : Inv t := by
  rcases engineStep_eq_next h with ⟨-, rfl⟩ | ⟨j, hj, ⟨hop, h⟩ | ⟨hop, h⟩ | ⟨hrx, h⟩⟩
  · exact hinv
  · exact hinv.checksumStep hj hop h
  · exact hinv.encodeStep hj hop h
  · exact hinv.rxStep hj hrx h

/-! The host's accesses, and every step. -/

theorem Inv.hostAccess {off : Word} {tr : Transfer} {s t : State} (hinv : Inv s) (h : hostAccess off tr s = .next t) :
    Inv t := by
  cases hostEffect_of_next h with
  | respond | register | crc => exact hinv.congr
  | @timeout j busy isRx =>
    have hst := statusOk_rxTimeout (s := s.respond .okay) (hinv.busyOk j busy).status isRx
    rw [rxTimeout_frame]
    exact .of_idle hinv.canonical hinv.bounded rfl hst
  | window idle inside =>
    exact .of_idle (Memory.place_wf hinv.canonical ..) (Memory.place_within hinv.bounded inside) idle (hinv.idleOk idle)
  | command _ _ _ _ rule =>
    have hbuf : t.buf = s.buf := by rw [rule.frame]
    have hcfg : t.cfg = s.cfg := by rw [rule.frame]
    have hwf : t.buf.wf := hbuf ▸ hinv.canonical
    have hin : t.buf.within t.cfg.bufBytes := hbuf ▸ hcfg ▸ hinv.bounded
    rcases rule.ends with ⟨hj, hst, -⟩ | ⟨j, hj, -, hok⟩
    · exact .of_idle hwf hin hj hst
    · exact .of_busy hwf hin hj hok
  | illegal idle op =>
    exact .of_idle hinv.canonical hinv.bounded idle (statusOk_doneStatus (mayReportUnclassed_illegal op))

/-- Settles O57: by the agent whose step it is; after a reset STATUS is 0 and BUF is empty. -/
theorem everyStepKeepsTheInvariant : Obligations.EveryStepKeepsTheInvariant := by
  intro s t hinv h
  rcases step_eq_next h with ⟨-, heng⟩ | ⟨e, rest, -, ⟨off, tr, -, hhost⟩ | ⟨addr, tr, -, rfl⟩ | ⟨b, -, rfl⟩ |
    ⟨-, rfl⟩ | ⟨v, -, rfl⟩ | ⟨-, rfl⟩⟩
  · exact Inv.engineStep hinv.congr heng
  · exact Inv.hostAccess hinv.congr hhost
  · exact hinv.congr
  · exact hinv.congr
  · exact hinv.congr
  · exact hinv.congr
  · exact .of_idle .nil nofun rfl ⟨fun _ => rfl, nofun, nofun, nofun, nofun⟩

end Sys2Proof.Machine
end

section
/-! What keeps a step from answering (R31, R105, R203): in a state that meets the invariant, only a read of an UNDEF
byte. -/

namespace Sys2Proof.Machine

/-- The answer is a next state, or the fault of reading a byte inside BUF that is UNDEF in `s`. -/
def StopsOnlyAtUndef (s : State) (a : Answer) : Prop :=
  (∃ t, a = .next t) ∨ ∃ x, a = .fault (.undefByte x) ∧ x < s.cfg.bufBytes ∧ s.buf.read x = none

theorem StopsOnlyAtUndef.next (s t : State) : StopsOnlyAtUndef s (.next t) := .inl ⟨t, rfl⟩

/-- A read inside BUF fails only where the byte is UNDEF. -/
theorem StopsOnlyAtUndef.of_bufRead {s : State} {a : Nat} {f : Fault} (h : s.bufRead a = .error f)
    (ha : a < s.cfg.bufBytes) : StopsOnlyAtUndef s (.fault f) := by
  rcases State.bufRead_eq_error.1 h with ⟨-, hnone, rfl⟩ | ⟨hge, -⟩
  · exact .inr ⟨a, rfl, ha, hnone⟩
  · omega

/-- A slice read fails where one of its bytes does. -/
theorem State.readSlice_eq_error {s : State} {a n : Nat} {f : Fault} (h : s.readSlice a n = .error f) :
    ∃ k, k < n ∧ s.bufRead (a + k) = .error f := by
  induction n generalizing a with
  | zero => cases h
  | succ n ih =>
    simp only [State.readSlice] at h
    split at h
    · next g hg => cases h; exact ⟨0, by omega, hg⟩
    · split at h
      · next g hg =>
        cases h
        obtain ⟨k, hk, hf⟩ := ih hg
        exact ⟨k + 1, by omega, by rw [← hf]; congr 1; omega⟩
      · cases h

theorem StopsOnlyAtUndef.of_readSlice {s : State} {a n : Nat} {f : Fault} (h : s.readSlice a n = .error f)
    (ha : a + n ≤ s.cfg.bufBytes) : StopsOnlyAtUndef s (.fault f) := by
  obtain ⟨k, hk, hf⟩ := State.readSlice_eq_error h
  exact .of_bufRead hf (by omega)

/-! The shared gates of a start rule, and the commands. -/

theorem StopsOnlyAtUndef.whenIdle {s₀ s : State} {op : Byte} {rule : State → Answer}
    (hrule : StopsOnlyAtUndef s₀ (rule ((s.respond .okay).accept op))) : StopsOnlyAtUndef s₀ (s.whenIdle op rule) := by
  unfold State.whenIdle
  split
  · exact .next ..
  · exact hrule

theorem StopsOnlyAtUndef.checkRange {s₀ s : State} {a n : Nat} {rule : State → Answer}
    (hrule : a + n ≤ s.cfg.bufBytes → StopsOnlyAtUndef s₀ (rule s)) : StopsOnlyAtUndef s₀ (s.checkRange a n rule) := by
  rcases Nat.lt_or_ge s.cfg.bufBytes (a + n) with hlt | hle
  · rw [State.checkRange_of_gt hlt]
    exact .next ..
  · rw [State.checkRange_of_le hle]
    exact hrule hle

theorem StopsOnlyAtUndef.ite {s₀ : State} {c : Prop} [Decidable c] {a b : Answer} (ha : c → StopsOnlyAtUndef s₀ a)
    (hb : ¬ c → StopsOnlyAtUndef s₀ b) : StopsOnlyAtUndef s₀ (if c then a else b) := by
  split
  · next h => exact ha h
  · next h => exact hb h

/-- DECLEN reads two bytes that its range check has found inside BUF (R144). -/
theorem execDeclen_stopsOnlyAtUndef (s : State) : StopsOnlyAtUndef s (execDeclen s) := by
  refine .whenIdle (.ite (fun _ => .next ..) fun hlen => .checkRange fun hle => ?_)
  simp only [State.accept_len, State.respond_len, State.accept_addr, State.respond_addr, State.accept_cfg,
    State.respond_cfg] at hlen hle
  split
  · next f hf => exact StopsOnlyAtUndef.of_bufRead (s := s) hf (by simp; omega)
  · split
    · next f hf => exact StopsOnlyAtUndef.of_bufRead (s := s) hf (by simp; omega)
    · exact .next ..

theorem exec_stopsOnlyAtUndef (i : Instr) (s : State) : StopsOnlyAtUndef s (exec i s) := by
  cases i <;> simp only [exec]
  case nop | crcInit | crcByte | rxHdr | rxFlush => exact .whenIdle (.next ..)
  case crcBuf | crcCalc | crcCheck | rxRaw =>
    exact .whenIdle (.checkRange fun _ => .ite (fun _ => .next ..) fun _ => .next ..)
  case rxBody | probe => exact .whenIdle (.checkRange fun _ => .next ..)
  case encode => exact .whenIdle (.ite (fun _ => .next ..) fun _ => .checkRange fun _ => .next ..)
  case declen => exact execDeclen_stopsOnlyAtUndef s
  case deadline =>
    unfold execDeadline
    dsimp only
    split
    · exact .next ..
    · exact .ite (fun _ => .next ..) fun _ => .next ..

theorem presentWord_stopsOnlyAtUndef (w : Word) (s : State) : StopsOnlyAtUndef s (presentWord w s) := by
  unfold presentWord
  split
  · exact exec_stopsOnlyAtUndef ..
  · exact .whenIdle (.next ..)

/-! The host's accesses. -/

theorem Datum.length_toBytes (d : Datum) : d.toBytes.length = d.size.bytes := by
  cases d <;> rfl

/-- A legal access of BUF lies inside it (R65), so only a read of an UNDEF byte stops (R66). -/
theorem bufAccess_stopsOnlyAtUndef {s : State} {a : Nat} {tr : Transfer} (ha : a + tr.size.bytes ≤ s.cfg.bufBytes) :
    StopsOnlyAtUndef s (bufAccess a tr s) := by
  unfold bufAccess
  refine .ite (fun _ => .next ..) fun _ => ?_
  cases tr with
  | read n =>
    dsimp only
    split
    · next f hf => exact .of_readSlice hf ha
    · exact .next ..
  | write d =>
    have hle : a + d.toBytes.length ≤ s.cfg.bufBytes := by rw [Datum.length_toBytes]; exact ha
    dsimp only
    rw [State.writeSlice_of_le hle]
    exact .next ..

theorem hostAccess_stopsOnlyAtUndef (off : Word) (tr : Transfer) (s : State) :
    StopsOnlyAtUndef s (hostAccess off tr s) := by
  unfold hostAccess
  split
  · exact .next ..
  · next a hp =>
    obtain ⟨-, hle, -⟩ := place_eq_buf hp
    exact bufAccess_stopsOnlyAtUndef hle
  · next r hp =>
    cases tr with
    | read n => exact .next ..
    | write d =>
      cases r
      case cmd => exact presentWord_stopsOnlyAtUndef ..
      all_goals exact .next ..

/-! The engine. -/

theorem checksumStep_stopsOnlyAtUndef {s : State} {j : Job} (hok : JobOk s j)
    (hop : j.op ∈ [JobOp.crcBuf, .crcCalc, .crcCheck]) : StopsOnlyAtUndef s (checksumStep j s) := by
  have hfits : j.a.toNat + j.n.toNat ≤ s.cfg.bufBytes := by
    have := hok.fits
    unfold Job.fits at this
    cases hc : j.op <;> simp [hc] at hop this <;> exact this
  have hlt := hok.progress
  unfold checksumStep
  split
  · next f hf => exact .of_bufRead hf (by omega)
  · exact .ite (fun _ => .ite (fun _ => .next ..) fun _ => .next ..) fun _ => .next ..

/-- Only the payload bytes of a frame are read from BUF (R143). -/
theorem encodeByte_eq_error {j : Job} {p k : Nat} {s : State} {f : Fault} (h : encodeByte j p k s = .error f) :
    3 ≤ k ∧ k < 3 + p ∧ s.bufRead (j.a.toNat + (k - 3)) = .error f := by
  unfold encodeByte at h
  rcases ite_eq_cases h with ⟨-, h⟩ | ⟨h0, h⟩
  · cases h
  rcases ite_eq_cases h with ⟨-, h⟩ | ⟨h1, h⟩
  · cases h
  rcases ite_eq_cases h with ⟨-, h⟩ | ⟨h2, h⟩
  · cases h
  rcases ite_eq_cases h with ⟨hlt, h⟩ | ⟨-, h⟩
  · exact ⟨by omega, hlt, h⟩
  · cases h

theorem encodeStep_stopsOnlyAtUndef {s : State} {j : Job} (hok : JobOk s j) (hop : j.op = .encode) :
    StopsOnlyAtUndef s (encodeStep j s) := by
  have hfits := hok.fits
  simp only [Job.fits, hop] at hfits
  obtain ⟨-, -, hle⟩ := hfits
  unfold encodeStep
  refine .ite (fun _ => ?_) fun _ => .next ..
  dsimp only
  split
  · next f hf =>
    obtain ⟨h3, hlt, hread⟩ := encodeByte_eq_error hf
    exact .of_bufRead hread (by omega)
  · exact .ite (fun _ => .next ..) fun _ => .next ..

/-- Where a busy RX command stores its next byte lies inside BUF (R105). -/
theorem JobOk.storeAt_lt {s : State} {j : Job} {a : Nat} (hok : JobOk s j) (h : j.storeAt = some a) :
    a < s.cfg.bufBytes := by
  have hfits := hok.fits
  have hlt := hok.progress
  unfold Job.fits at hfits
  unfold Job.storeAt Job.textLen at h
  cases hop : j.op <;> simp only [hop] at hfits h
  case rxRaw => cases h; omega
  case probe =>
    obtain ⟨hn, hle⟩ := hfits
    cases h
    have hlt : j.i.toNat < 8 := by simpa [hn] using hlt
    omega
  case rxBody =>
    obtain ⟨hn, hle⟩ := hfits
    rcases ite_eq_cases h with ⟨hi, h⟩ | ⟨-, h⟩ <;> cases h
    have : j.n.toNat = s.dlen.toNat + 4 := by rw [hn]; bv_omega
    omega
  all_goals cases h

/-- A byte rule stops only where its byte would go outside BUF. -/
theorem rxByteRule_eq_error {j : Job} {b : Byte} {s : State} {f : Fault} (h : rxByteRule j b s = .error f) :
    ∃ a, j.storeAt = some a ∧ s.cfg.bufBytes ≤ a := by
  unfold rxByteRule at h
  cases hop : j.op <;> simp only [hop] at h
  case probe =>
    unfold probeByte at h
    split at h <;> cases h
    next hw => exact ⟨_, by simp only [Job.storeAt, hop], (State.bufWrite_eq_error.1 hw).1⟩
  case rxRaw =>
    unfold rxRawByte at h
    split at h <;> cases h
    next hw => exact ⟨_, by simp only [Job.storeAt, hop], (State.bufWrite_eq_error.1 hw).1⟩
  case rxBody =>
    unfold rxBodyByte at h
    rcases ite_eq_cases h with ⟨hi, h⟩ | ⟨-, h⟩
    · split at h <;> cases h
      next hw => exact ⟨_, by simp only [Job.storeAt, hop, if_pos hi], (State.bufWrite_eq_error.1 hw).1⟩
    · cases h
  all_goals cases h

/-- PROBE reads back eight bytes that are inside BUF and defined, so every RX command that has taken its last byte
completes (R182). -/
theorem rxComplete_answers {s u : State} {j j' : Job} {b : Byte} (hinv : Inv s) (hok : JobOk s j)
    (hrule : rxByteRule j b s.rxTake = .ok (j', u)) (hn : j'.i + 1 = j'.n) :
    ∃ t, rxComplete { j' with i := j'.i + 1 } u = .next t := by
  obtain ⟨-, -, hdef⟩ := rxByteRule_buf hinv hok hrule
  obtain ⟨⟨x, rfl⟩, hframe, -⟩ := rxByteRule_frame hrule
  cases hop : j.op <;> simp only [rxComplete]
  case probe =>
    have hfits := hok.fits
    simp only [Job.fits, hop] at hfits
    obtain ⟨h8, hle⟩ := hfits
    unfold probeComplete
    split
    · next f hf =>
      obtain ⟨k, hk, hf⟩ := State.readSlice_eq_error hf
      have hstored : Job.stored { j with acc := x, i := j.i + 1 } = 8 := by
        simp only [Job.stored, hop, show j.i + 1 = 8 from hn.trans h8]
        rfl
      have hsome := hdef k (hstored ▸ hk)
      have hcfg : u.cfg = s.cfg := by rw [hframe]; rfl
      rcases State.bufRead_eq_error.1 hf with ⟨-, hnone, -⟩ | ⟨hge, -⟩
      · simp [hnone] at hsome
      · simp only [hcfg, Config.headerBytes] at hge hk
        omega
    · split <;> exact ⟨_, rfl⟩
  all_goals exact ⟨_, rfl⟩

theorem rxStep_answers {s : State} {j : Job} (hinv : Inv s) (hok : JobOk s j) : ∃ t, rxStep j s = .next t := by
  unfold rxStep
  split
  · exact ⟨_, rfl⟩
  · exact ⟨_, rfl⟩
  · split
    · next f hf =>
      obtain ⟨a, hat, hge⟩ := rxByteRule_eq_error hf
      exact absurd (hok.storeAt_lt hat) (Nat.not_lt.2 hge)
    · next j' u hrule =>
      dsimp only
      split
      · next hn => exact rxComplete_answers hinv hok hrule hn
      · exact ⟨_, rfl⟩

theorem engineStep_stopsOnlyAtUndef {s : State} (hinv : Inv s) : StopsOnlyAtUndef s (engineStep s) := by
  unfold engineStep
  split
  · exact .next ..
  · next j hj =>
    have hok := hinv.busyOk j hj
    split
    · next hop => exact checksumStep_stopsOnlyAtUndef hok (by simp [hop])
    · next hop => exact checksumStep_stopsOnlyAtUndef hok (by simp [hop])
    · next hop => exact checksumStep_stopsOnlyAtUndef hok (by simp [hop])
    · next hop => exact encodeStep_stopsOnlyAtUndef hok hop
    all_goals exact .inl (rxStep_answers hinv hok)

/-- Settles O58: by the agent whose step it is. -/
theorem stepsStopOnlyAtUndefBytes : Obligations.StepsStopOnlyAtUndefBytes := by
  intro s hinv
  cases ha : s.agenda with
  | nil =>
    rw [step_of_nil ha]
    exact engineStep_stopsOnlyAtUndef hinv
  | cons e rest =>
    rw [step_of_cons ha]
    have hinv' : Inv { s with agenda := rest } := hinv.congr
    cases e with
    | host off tr => exact hostAccess_stopsOnlyAtUndef off tr { s with agenda := rest }
    | hostAt addr tr =>
      refine StopsOnlyAtUndef.ite (fun _ => ?_) fun _ => .next ..
      exact hostAccess_stopsOnlyAtUndef _ tr { s with agenda := rest }
    | engine => exact engineStep_stopsOnlyAtUndef hinv'
    | rxByte b => exact .inl ⟨_, rfl⟩
    | rxEnd => exact .inl ⟨_, rfl⟩
    | txReady v => exact .inl ⟨_, rfl⟩
    | reset => exact .inl ⟨_, rfl⟩

end Sys2Proof.Machine
end

section
/-! An RXRAW or a PROBE in progress under every interleaving (R160 to R162, R181): a step of the link only lengthens the
stream, and a step of the engine only moves the stream's next byte to BUF. -/

namespace Sys2Proof.Machine

/-- What a slice reads depends on BUF only. -/
theorem State.readSlice_congr {s t : State} {a n : Nat} {bs : List Byte} (h : s.readSlice a n = .ok bs)
    (hcfg : t.cfg = s.cfg) (hbuf : t.buf = s.buf) : t.readSlice a n = .ok bs := by
  obtain ⟨hlen, hread⟩ := State.readSlice_eq_ok.1 h
  refine State.readSlice_eq_ok.2 ⟨hlen, fun k hk => State.bufRead_eq_ok.2 ?_⟩
  rw [hcfg, hbuf]
  exact State.bufRead_eq_ok.1 (hread k hk)

/-- A byte written at the end of a slice extends it. -/
theorem State.readSlice_write_end {s t : State} {a n : Nat} {bs : List Byte} {b : Byte} (h : s.readSlice a n = .ok bs)
    (ha : a + n < s.cfg.bufBytes) (hcfg : t.cfg = s.cfg) (hbuf : t.buf = s.buf.write (a + n) b) :
    t.readSlice a (n + 1) = .ok (bs ++ [b]) := by
  obtain ⟨hlen, hread⟩ := State.readSlice_eq_ok.1 h
  refine State.readSlice_eq_ok.2 ⟨by simp [hlen], fun k hk => State.bufRead_eq_ok.2 ?_⟩
  rw [hcfg, hbuf]
  simp only [List.length_append, hlen, List.length_singleton] at hk
  rcases Nat.lt_succ_iff_lt_or_eq.1 hk with hlt | rfl
  · obtain ⟨hin, hval⟩ := State.bufRead_eq_ok.1 (hread k (by omega))
    rw [List.getElem_append_left, Memory.read_write_other _ _ (by omega)]
    · exact ⟨hin, hval⟩
    · omega
  · exact ⟨ha, by simp [Memory.read_write_same, ← hlen]⟩

/-- The link's and the host's steps, and the waiting engine's: they append to the stream what the link delivers. -/
theorem FillAt.deliver {op : JobOp} {a n : Nat} {stream d : List Byte} {s t : State} {j : Job}
    (h : FillAt op a n stream s j) (hrxq : t.rxq = s.rxq ++ d) (hcfg : t.cfg = s.cfg := by rfl)
    (hstatus : t.status = s.status := by rfl) (hbuf : t.buf = s.buf := by rfl) (hjob : t.job = s.job := by rfl)
    (hcnt : t.rxCnt = s.rxCnt := by rfl) : FillAt op a n (stream ++ d) t j where
  job := hjob.trans h.job
  opIs := h.opIs
  base := h.base
  total := h.total
  progress := h.progress
  taken := by rw [List.length_append]; exact h.taken.trans (Nat.le_add_right ..)
  inside := hcfg ▸ h.inside
  stored := by
    rw [List.take_append_of_le_length h.taken]
    exact State.readSlice_congr h.stored hcfg hbuf
  waiting := by rw [hrxq, h.waiting, List.drop_append_of_le_length h.taken]
  counted := hcnt.trans h.counted
  status := hstatus.trans h.status

/-- The byte rule of RXRAW and PROBE: the byte goes to BUF at J.a + J.i (R162, R181). -/
theorem rxByteRule_fill {s : State} {j : Job} {b : Byte} (hop : j.op = .rxRaw ∨ j.op = .probe)
    (ha : j.a.toNat + j.i.toNat < s.cfg.bufBytes) :
    rxByteRule j b s = .ok (j, { s with buf := s.buf.write (j.a.toNat + j.i.toNat) b }) := by
  have hw := State.bufWrite_eq_ok (b := b).2 ⟨ha, rfl⟩
  rcases hop with hop | hop
  · simp only [rxByteRule, hop, rxRawByte, hw]
  · simp only [rxByteRule, hop, probeByte, hw]

/-- All `n` bytes of an RXRAW or a PROBE are taken, and only its completion rule is left to run. -/
structure FilledAt (op : JobOp) (a n : Nat) (stream : List Byte) (s : State) (j : Job) : Prop where
  opIs : j.op = op
  base : j.a.toNat = a
  enough : n ≤ stream.length
  inside : a + n ≤ s.cfg.bufBytes
  stored : s.readSlice a n = .ok (stream.take n)
  waiting : s.rxq = stream.drop n
  counted : s.rxCnt = BitVec.ofNat 32 n
  status : s.status = busyStatus op.code

/-- An RX step of an RXRAW or a PROBE: it goes on with at most one byte more, closes on EOS with the whole stream
taken, or has taken its last byte and completes. -/
theorem FillAt.rxStep {op : JobOp} {a n : Nat} {stream : List Byte} {s t : State} {j : Job}
    (h : FillAt op a n stream s j) (hop : op = .rxRaw ∨ op = .probe) (hstep : rxStep j s = .next t) :
    (∃ j', FillAt op a n stream t j' ∧ (j'.i = j.i ∨ j'.i = j.i + 1)) ∨
    (s.rxEos = true ∧ s.rxq = [] ∧ j.i.toNat = stream.length ∧ t = rxClose j s) ∨
    (∃ u j', FilledAt op a n stream u j' ∧ rxComplete j' u = .next t) := by
  have hlt := h.progress
  have hsucc := toNat_succ_of_lt hlt
  have hin : j.a.toNat + j.i.toNat < s.cfg.bufBytes := by
    have := h.inside
    rw [← h.base, ← h.total] at this
    omega
  rcases rxStep_eq_next hstep with ⟨-, rfl⟩ | ⟨hEos, rfl⟩ | ⟨b, j', u, hb, hrule, ht⟩
  · exact .inl ⟨j, h, .inl rfl⟩
  · obtain ⟨hq, hEos⟩ := State.rxHead_eq_eos.1 hEos
    have hdrop := h.waiting.symm.trans hq
    exact .inr (.inl ⟨hEos, hq, h.taken.antisymm (List.drop_eq_nil_iff.1 hdrop), rfl⟩)
  · obtain ⟨q, hq⟩ := State.rxHead_eq_byte.1 hb
    rw [rxByteRule_fill (s := s.rxTake) (h.opIs ▸ hop) hin] at hrule
    cases hrule
    have hdrop : stream.drop j.i.toNat = b :: q := h.waiting.symm.trans hq
    have hlen : j.i.toNat < stream.length := by
      by_contra hge
      rw [List.drop_eq_nil_of_le (not_lt.1 hge)] at hdrop
      cases hdrop
    have hnext : stream.take (j.i.toNat + 1) = stream.take j.i.toNat ++ [b] := by
      rw [List.take_add, hdrop]; rfl
    have hwait : s.rxTake.rxq = stream.drop (j.i + 1).toNat := by
      rw [hsucc, ← List.tail_drop, hdrop]; simp [hq]
    have hstored (v : State) (hcfg : v.cfg = s.cfg) (hbuf : v.buf = s.buf.write (j.a.toNat + j.i.toNat) b) :
        v.readSlice a (j.i + 1).toNat = .ok (stream.take (j.i + 1).toNat) := by
      rw [hsucc, hnext]
      exact State.readSlice_write_end h.stored (h.base ▸ hin) hcfg (h.base ▸ hbuf)
    have hcnt : s.rxTake.rxCnt = j.i + 1 := by simp [h.counted]
    rcases ht with ⟨hn, ht⟩ | ⟨hne, rfl⟩
    · have hn : (j.i + 1).toNat = n := h.total ▸ congrArg BitVec.toNat hn
      refine .inr (.inr ⟨_, _, ?_, ht⟩)
      refine ⟨h.opIs, h.base, by omega, h.inside, ?_, ?_, ?_, h.status⟩
      · exact hn ▸ hstored _ rfl rfl
      · exact hn ▸ hwait
      · rw [← hn, BitVec.ofNat_toNat, BitVec.setWidth_eq]
        exact hcnt
    · have htaken : (j.i + 1).toNat ≤ stream.length := by omega
      exact .inl ⟨_, ⟨rfl, h.opIs, h.base, h.total, toNat_succ_lt_of_ne hlt hne, htaken, h.inside, hstored _ rfl rfl,
        hwait, hcnt, h.status⟩, .inr rfl⟩

/-- Settles O32: by the four ways a step of a busy machine goes, and the RX step's three. -/
theorem rxRawStoresTheDeliveriesInOrder : Obligations.RxRawStoresTheDeliveriesInOrder := by
  intro a n stream s t j h hstep
  have hop : j.op ≠ .probe := by simp [h.opIs]
  have hended (r : Result) : ({ s.status with done := true, result := r } : Status) = doneStatus 0x24 r := by
    rw [h.status]; rfl
  rcases step_busy_eq_next h.job hstep with hreset | ⟨hnext, heng⟩ | ⟨eos, rdy, r, rfl⟩ | ⟨hcmd, -, rfl⟩
  · exact .inr (.inr (.inr (.inr hreset)))
  · have h' : FillAt .rxRaw a n stream { s with agenda := s.agenda.tail } j := by
      simpa using h.deliver (t := { s with agenda := s.agenda.tail }) (d := []) (by simp)
    rw [engineStep_of_isRx h'.job (by simp [h.opIs, JobOp.isRx])] at heng
    rcases h'.rxStep (.inl rfl) heng with hgo | ⟨hEos, hq, hall, rfl⟩ | ⟨u, j', hu, hdone⟩
    · rw [delivered_of_engineNext hnext, List.append_nil]
      exact .inl hgo
    · rw [rxClose_of_ne_probe hop]
      refine .inr (.inr (.inl ⟨hnext, hEos, rfl, hended _, ?_, ?_, hq, ?_⟩))
      · rw [← hall, ← h.total]
        exact h.progress
      · have hstored := h.stored
        rw [hall, List.take_length] at hstored
        exact State.readSlice_congr hstored rfl rfl
      · rw [← hall, BitVec.ofNat_toNat, BitVec.setWidth_eq]
        exact h.counted
    · simp only [rxComplete, hu.opIs] at hdone
      cases hdone
      refine .inr (.inl ⟨hnext, rfl, ?_, hu.enough, ?_, hu.waiting, hu.counted⟩)
      · simp only [State.finish_status, hu.status]
        rfl
      · exact State.readSlice_congr hu.stored rfl rfl
  · exact .inl ⟨j, h.deliver rfl, .inl rfl⟩
  · rw [rxTimeout_of_ne_probe hop]
    exact .inr (.inr (.inr (.inl ⟨hcmd, rfl, hended _, rfl, rfl, rfl⟩)))

end Sys2Proof.Machine
end

section
/-! An ENCODE in progress under every interleaving (R140, R143): the byte it sends at a place is the frame's byte
there, and no other agent's step touches what it has sent or has still to send. -/

namespace Sys2Proof.Machine

theorem length_frame (c : Byte) (p : List Byte) : (frame c p).length = p.length + 7 := by
  simp [frame, le16Bytes, le32Bytes]

/-- The content bytes of a frame, its command byte and payload, stand from place 2 (R140). -/
theorem frame_content {c : Byte} {p : List Byte} {k : Nat} (h2 : 2 ≤ k) (hk : k < 3 + p.length) :
    (frame c p)[k]? = (c :: p)[k - 2]? := by
  have hlen : (le16Bytes (BitVec.ofNat 16 (1 + p.length)) ++ (c :: p)).length = 3 + p.length := by
    simp [le16Bytes]; omega
  rw [frame, List.getElem?_append_left (hlen ▸ hk), List.getElem?_append_right (by exact h2)]
  rfl

/-- The checksum bytes of a frame stand after its content (R140). -/
theorem frame_checksum {c : Byte} {p : List Byte} {k : Nat} (hk : 3 + p.length ≤ k) (hlt : k < p.length + 7) :
    (frame c p)[k]? = some (byteOf (k - 3 - p.length) (checksum (c :: p))) := by
  have hlen : (le16Bytes (BitVec.ofNat 16 (1 + p.length)) ++ (c :: p)).length = 3 + p.length := by
    simp [le16Bytes]; omega
  rw [frame, List.getElem?_append_right (hlen ▸ hk), hlen, Nat.sub_add_eq]
  obtain ⟨m, hm, hlt⟩ : ∃ m, k - 3 - p.length = m ∧ m < 4 := ⟨_, rfl, by omega⟩
  rw [hm]
  interval_cases m <;> rfl

/-- The two bytes of the length field do not depend on the width it is computed in (R10, R140). -/
theorem byteOf_ofNat {k n : Nat} (hk : k < 2) :
    byteOf k (BitVec.ofNat 32 n) = (BitVec.ofNat 16 n).extractLsb' (8 * k) 8 := by
  ext i hi
  simp only [byteOf, BitVec.getElem_extractLsb', BitVec.getLsbD_ofNat, show 8 * k + i < 32 by omega,
    show 8 * k + i < 16 by omega]

/-- What ENCODE sends at place `k` is the frame's byte there, when BUF holds the payload and, from the end of the
content on, CRC its checksum (R143). -/
theorem encodeByte_eq_frame {c b : Byte} {p : List Byte} {j : Job} {k : Nat} {s : State} (hc : j.c = c)
    (hsource : s.readSlice j.a.toNat p.length = .ok p) (hcrc : 3 + p.length ≤ k → s.crcOut = checksum (c :: p))
    (hk : k < p.length + 7) (h : encodeByte j p.length k s = .ok b) : (frame c p)[k]? = some b := by
  unfold encodeByte at h
  rcases ite_eq_cases h with ⟨rfl, h⟩ | ⟨h0, h⟩
  · cases h
    rw [byteOf_ofNat (by decide), Nat.add_comm]
    rfl
  rcases ite_eq_cases h with ⟨rfl, h⟩ | ⟨h1, h⟩
  · cases h
    rw [byteOf_ofNat (by decide), Nat.add_comm]
    rfl
  rcases ite_eq_cases h with ⟨rfl, h⟩ | ⟨h2, h⟩
  · cases h
    rw [frame_content (by decide) (by omega), hc]
    rfl
  rcases ite_eq_cases h with ⟨hlt, h⟩ | ⟨hge, h⟩
  · obtain ⟨-, hread⟩ := State.readSlice_eq_ok.1 hsource
    rw [hread (k - 3) (by omega)] at h
    cases h
    rw [frame_content (by omega) hlt, show k - 2 = k - 3 + 1 by omega, List.getElem?_cons_succ,
      List.getElem?_eq_getElem]
  · cases h
    rw [frame_checksum (by omega) hk, hcrc (by omega)]

/-- Folding one byte more (R122). -/
theorem crcFold_take_succ {r : Word} {bs : List Byte} {k : Nat} {b : Byte} (h : bs[k]? = some b) :
    crcFold r (bs.take (k + 1)) = crcStep (crcFold r (bs.take k)) b := by
  simp [crcFold, List.take_add_one, h]

/-- Every agent's step but the engine's and a reset leaves what an ENCODE works on. -/
theorem EncodeAt.congr {c : Byte} {p sent : List Byte} {s t : State} {j : Job} (h : EncodeAt c p sent s j)
    (hcfg : t.cfg = s.cfg := by rfl) (hbuf : t.buf = s.buf := by rfl) (hjob : t.job = s.job := by rfl)
    (hout : t.txOut = s.txOut := by rfl) (hcnt : t.txCnt = s.txCnt := by rfl) (hcrc : t.crc = s.crc := by rfl)
    (hstatus : t.status = s.status := by rfl) : EncodeAt c p sent t j where
  job := hjob.trans h.job
  opIs := h.opIs
  cmd := h.cmd
  total := h.total
  short := h.short
  progress := h.progress
  source := State.readSlice_congr h.source hcfg hbuf
  sentSoFar := hout.trans h.sentSoFar
  counted := hcnt.trans h.counted
  folded := hcrc.trans h.folded
  status := hstatus.trans h.status

/-- The whole content is in CRC once its last byte is sent, so CRCOUT is its checksum (R30, R143). -/
theorem EncodeAt.crcOut {c : Byte} {p sent : List Byte} {s : State} {j : Job} (h : EncodeAt c p sent s j)
    (hi : 3 + p.length ≤ j.i.toNat) : s.crcOut = checksum (c :: p) := by
  rw [State.crcOut, h.folded, List.take_of_length_le (by simp; omega), checksum]

/-- CRC after the byte `b` of place J.i: the content bytes enter it, the others do not (R143). -/
theorem EncodeAt.folded_succ {c b : Byte} {p sent : List Byte} {s : State} {j : Job} (h : EncodeAt c p sent s j)
    (hb : (frame c p)[j.i.toNat]? = some b) :
    (if 2 ≤ j.i.toNat ∧ j.i.toNat < 3 + p.length then s.crcByte b else s).crc =
      crcFold Config.crcInit ((c :: p).take (j.i.toNat + 1 - 2)) := by
  split
  · next hin =>
    obtain ⟨h2, hlt⟩ := hin
    rw [frame_content h2 hlt] at hb
    rw [State.crcByte_crc, h.folded, show j.i.toNat + 1 - 2 = j.i.toNat - 2 + 1 by omega, crcFold_take_succ hb]
  · next hout =>
    rw [h.folded]
    rcases Nat.lt_or_ge j.i.toNat 2 with hlt | hge
    · rw [show j.i.toNat - 2 = 0 by omega, show j.i.toNat + 1 - 2 = 0 by omega]
    · have hge : 3 + p.length ≤ j.i.toNat := by omega
      rw [List.take_of_length_le (by simp; omega), List.take_of_length_le (by simp; omega)]

/-- An ENCODE's engine step: it waits or goes on with at most one byte more of the same frame, or has sent the last
one and finishes OK. -/
theorem EncodeAt.encodeStep {c : Byte} {p sent : List Byte} {s t : State} {j : Job} (h : EncodeAt c p sent s j)
    (hstep : encodeStep j s = .next t) :
    (∃ j', EncodeAt c p sent t j' ∧ (j'.i = j.i ∨ j'.i = j.i + 1)) ∨
    (t.job = none ∧ t.status = doneStatus 0x10 .ok ∧ t.txOut = sent ++ frame c p ∧ t.crcOut = checksum (c :: p)) := by
  have hsucc := toNat_succ_of_lt h.progress
  have hplace : j.i.toNat < p.length + 7 := h.total ▸ h.progress
  rcases encodeStep_eq_next hstep with ⟨-, rfl⟩ | ⟨-, b, u, hb, hu, ht⟩
  · exact .inl ⟨j, h, .inl rfl⟩
  · rw [show j.n.toNat - 7 = p.length by rw [h.total]; omega] at hb hu
    have hbyte := encodeByte_eq_frame h.cmd h.source h.crcOut hplace hb
    have hcrc : u.crc = crcFold Config.crcInit ((c :: p).take (j.i.toNat + 1 - 2)) := by
      rw [hu]
      exact h.folded_succ hbyte
    have hu : u = { s with crc := u.crc, txCnt := s.txCnt + 1, txOut := s.txOut ++ [b] } := by
      rw [hu]; split <;> rfl
    have hout : s.txOut ++ [b] = sent ++ (frame c p).take (j.i.toNat + 1) := by
      rw [h.sentSoFar, List.take_add_one, hbyte, List.append_assoc]; rfl
    rw [hu] at ht
    rcases ht with ⟨hn, rfl⟩ | ⟨hne, rfl⟩
    · have hlast : j.i.toNat + 1 = p.length + 7 := by rw [← hsucc, hn, h.total]
      refine .inr ⟨rfl, ?_, ?_, ?_⟩
      · simp only [State.finish_status, h.status]
        rfl
      · show s.txOut ++ [b] = _
        rw [hout, List.take_of_length_le (by rw [length_frame]; omega)]
      · show ~~~ u.crc = _
        rw [hcrc, List.take_of_length_le (by simp; omega), checksum]
    · have hcnt : s.txCnt + 1 = j.i + 1 := by rw [h.counted]
      exact .inl ⟨_, ⟨rfl, h.opIs, h.cmd, h.total, h.short, toNat_succ_lt_of_ne h.progress hne,
        State.readSlice_congr h.source rfl rfl, hsucc ▸ hout, hcnt, hsucc ▸ hcrc, h.status⟩, .inr rfl⟩

/-- A busy ENCODE's engine step is the encoder's (R143). -/
theorem engineStep_of_encode {s : State} {j : Job} (hj : s.job = some j) (hop : j.op = .encode) :
    engineStep s = encodeStep j s := by
  simp [engineStep, hj, hop]

/-- Settles O26: a DEADLINE does not end an ENCODE, and of the other steps only the engine's moves it on. -/
theorem encodeSendsTheFrameUnderEveryInterleaving : Obligations.EncodeSendsTheFrameUnderEveryInterleaving := by
  intro c p sent s t j h hstep
  rcases step_busy_eq_next h.job hstep with hreset | ⟨hnext, heng⟩ | ⟨eos, rdy, r, rfl⟩ | ⟨-, hrx, -⟩
  · exact .inr (.inr hreset)
  · have h' : EncodeAt c p sent { s with agenda := s.agenda.tail } j := h.congr
    rw [engineStep_of_encode h'.job h'.opIs] at heng
    rcases h'.encodeStep heng with hgo | hdone
    · exact .inl hgo
    · exact .inr (.inl hdone)
  · exact .inl ⟨j, h.congr, .inl rfl⟩
  · simp [h.opIs, JobOp.isRx] at hrx

end Sys2Proof.Machine
end

section
/-! The host's accesses (20_memory.md): where each offset leads, said once for the registers and once for the BUF
window, and what an access there answers. -/

namespace Sys2Proof.Machine

/-! The offsets (R20, R60, R62, R63, R65). -/

/-- Each register's offset (R20). -/
def Reg.offset : Reg → Word
  | .cmd => 0x00
  | .status => 0x04
  | .addr => 0x08
  | .len => 0x0C
  | .crc => 0x10
  | .crcOut => 0x14
  | .claim => 0x18
  | .dlen => 0x1C
  | .ver => 0x20
  | .rxCnt => 0x24
  | .txCnt => 0x28
  | .magic => 0x2C

/-- The registers, in the order of their offsets (R20). -/
def Reg.all : List Reg := [.cmd, .status, .addr, .len, .crc, .crcOut, .claim, .dlen, .ver, .rxCnt, .txCnt, .magic]

/-- The registers a word write leaves as they are (R64). -/
def Reg.readOnly : List Reg := [.status, .crcOut, .dlen, .ver, .rxCnt, .txCnt, .magic]

/-- The registers a word write stores to (R27, R28, R29, R32). -/
def Reg.stored : List Reg := [.addr, .len, .crc, .claim]

theorem Reg.mem_all (r : Reg) : r ∈ Reg.all := by
  cases r <;> decide

theorem readOnlyOffsets_eq : readOnlyOffsets = Reg.readOnly.map Reg.offset := rfl

/-- A word access at a register's offset is that register's (R62). -/
theorem place_offset (c : Config) (r : Reg) : place c r.offset.toNat .word = some (.reg r) := by
  cases r <;> rfl

/-- Every aligned offset of the register region is a register's (R20). -/
theorem Reg.exists_offset {off : Word} (hlt : off.toNat < 0x30) (halign : off.toNat % 4 = 0) :
    ∃ r : Reg, r.offset = off := by
  have htable : ∀ k < 12, ∃ r ∈ Reg.all, r.offset.toNat = 4 * k := by decide
  obtain ⟨r, -, hr⟩ := htable (off.toNat / 4) (by omega)
  exact ⟨r, BitVec.eq_of_toNat_eq (by omega)⟩

/-- A word read of a register gives its row of `State.wordReads` (R64). -/
theorem State.wordReads_eq (s : State) : s.wordReads = Reg.all.map fun r => (r.offset, s.readReg r) := by
  have hcrc : s.crc ^^^ 0xFFFFFFFF = s.crcOut := BitVec.xor_allOnes
  have hzext (v : Half) : 0#16 ++ v = v.setWidth 32 := (BitVec.setWidth_eq_append (by decide)).symm
  rw [State.wordReads, hcrc, hzext, hzext]
  rfl

theorem State.mem_wordReads {s : State} {off v : Word} :
    (off, v) ∈ s.wordReads ↔ ∃ r : Reg, r.offset = off ∧ s.readReg r = v := by
  simp [State.wordReads_eq, Reg.mem_all]

/-- The registers stand at offsets that are multiples of 4 (R20). -/
theorem regAt_aligned {off : Nat} {r : Reg} (h : regAt off = some r) : off % 4 = 0 := by
  unfold regAt at h
  split at h
  -- the offsets that are no register's
  case h_13 => cases h
  all_goals rfl

/-- What makes an access illegal: in the register region anything but an aligned word access, the gap up to the BUF
window, and in the window a last byte past BUF or a misaligned first one (R62, R63, R65). -/
def IllegalAccess (c : Config) (off : Nat) (n : Size) : Prop :=
  (off < 0x30 ∧ (n.bytes ≠ 4 ∨ off % 4 ≠ 0)) ∨ (0x30 ≤ off ∧ off < 0x10000) ∨
  (0x10000 ≤ off ∧ 0x10000 + c.bufBytes < off + n.bytes) ∨ (0x10000 ≤ off ∧ off % n.bytes ≠ 0)

/-- No place is an illegal access's. -/
theorem IllegalAccess.place {c : Config} {off : Nat} {n : Size} (h : IllegalAccess c off n) :
    Machine.place c off n = none := by
  cases hp : Machine.place c off n with
  | none => rfl
  | some p =>
    exfalso
    cases p with
    | reg r =>
      obtain ⟨rfl, hlt, hr⟩ := place_eq_reg hp
      have halign := regAt_aligned hr
      simp only [Config.regionEnd] at hlt
      simp only [IllegalAccess, Size.bytes] at h
      omega
    | buf a =>
      obtain ⟨hoff, hle, halign⟩ := place_eq_buf hp
      simp only [Config.bufWindow] at hoff
      simp only [IllegalAccess, halign] at h
      omega

/-- An aligned access inside the BUF window is BUF's (R65). -/
theorem place_window {c : Config} {off a : Nat} {n : Size} (hoff : off = 0x10000 + a) (halign : off % n.bytes = 0)
    (hle : a + n.bytes ≤ c.bufBytes) : place c off n = some (.buf a) := by
  have hge : Config.bufWindow ≤ off := hoff ▸ Nat.le_add_right ..
  have hout : ¬ off < Config.regionEnd := by simp only [Config.regionEnd]; omega
  have hin : off + n.bytes ≤ Config.bufWindow + c.bufBytes := by simp only [Config.bufWindow]; omega
  rw [place, if_neg hout, if_pos ⟨hge, hin, halign⟩, hoff, Config.bufWindow, Nat.add_sub_cancel_left]

/-! What an access answers, by where it leads. -/

/-- The step of a host access at the head of the agenda is the access. -/
theorem step_host {s : State} {off : Word} {tr : Transfer} {rest : List Event} (h : s.agenda = .host off tr :: rest) :
    step s = hostAccess off tr { s with agenda := rest } :=
  step_of_cons h

theorem hostAccess_of_nowhere {s : State} {off : Word} {tr : Transfer} (h : place s.cfg off.toNat tr.size = none) :
    hostAccess off tr s = .next s.busError := by
  rw [hostAccess, h]

theorem hostAccess_of_window {s : State} {off : Word} {tr : Transfer} {a : Nat}
    (h : place s.cfg off.toNat tr.size = some (.buf a)) : hostAccess off tr s = bufAccess a tr s := by
  rw [hostAccess, h]

theorem hostAccess_read_of_reg {s : State} {off : Word} {n : Size} {r : Reg}
    (h : place s.cfg off.toNat n = some (.reg r)) :
    hostAccess off (.read n) s = .next (s.respond (.data (.word (s.readReg r)))) := by
  rw [hostAccess, show place s.cfg off.toNat (Transfer.read n).size = _ from h]

theorem hostAccess_readReg (r : Reg) (s : State) :
    hostAccess r.offset (.read .word) s = .next (s.respond (.data (.word (s.readReg r)))) :=
  hostAccess_read_of_reg (place_offset s.cfg r)

theorem hostAccess_writeReg (r : Reg) (v : Word) (s : State) :
    hostAccess r.offset (.write (.word v)) s = writeReg r v s := by
  have h : place s.cfg r.offset.toNat (Transfer.write (.word v)).size = _ := place_offset s.cfg r
  rw [hostAccess, h]
  rfl

/-- BASE + off is the block's offset off (R60). -/
theorem hostAccessAt_base (off : Word) (tr : Transfer) (s : State) :
    hostAccessAt (s.cfg.base + off.toNat) tr s = hostAccess off tr s := by
  have hoff := off.isLt
  rw [hostAccessAt, if_pos ⟨Nat.le_add_right .., by omega⟩, Nat.add_sub_cancel_left, BitVec.ofNat_toNat,
    BitVec.setWidth_eq]

/-! The registers (R64, R67). -/

theorem writeReg_of_readOnly {r : Reg} (hr : r ∈ Reg.readOnly) (v : Word) (s : State) :
    writeReg r v s = .next (s.respond .okay) := by
  cases r
  case cmd | addr | len | crc | claim => simp [Reg.readOnly] at hr
  all_goals rfl

theorem State.writeIdle_of_idle {s : State} (hj : s.job = none) (t : State) : s.writeIdle t = t.respond .okay := by
  simp [State.writeIdle, State.busy, hj]

theorem State.writeIdle_of_busy {s : State} {j : Job} (hj : s.job = some j) (t : State) :
    s.writeIdle t = s.busError := by
  simp [State.writeIdle, State.busy, hj]

/-- While busy ADDR, LEN, CRC and CLAIM cannot be written (R67). -/
theorem writeReg_of_busy {r : Reg} (hr : r ∈ Reg.stored) {s : State} {j : Job} (hj : s.job = some j) (v : Word) :
    writeReg r v s = .next s.busError := by
  cases r
  case addr | len | crc | claim => exact congrArg _ (State.writeIdle_of_busy hj _)
  all_goals simp [Reg.stored] at hr

/-- A word write at a read-only register's offset completes OKAY and changes nothing (R64). -/
theorem hostAccess_write_readOnly {off : Word} (hoff : off ∈ readOnlyOffsets) (v : Word) (s : State) :
    hostAccess off (.write (.word v)) s = .next (s.respond .okay) := by
  rw [readOnlyOffsets_eq] at hoff
  obtain ⟨r, hr, rfl⟩ := List.mem_map.1 hoff
  rw [hostAccess_writeReg, writeReg_of_readOnly hr]

/-- A word read at a register's offset returns what `State.wordReads` lists there (R64). -/
theorem hostAccess_read_wordReads {s : State} {off v : Word} (h : (off, v) ∈ s.wordReads) :
    hostAccess off (.read .word) s = .next (s.respond (.data (.word v))) := by
  obtain ⟨r, rfl, rfl⟩ := State.mem_wordReads.1 h
  exact hostAccess_readReg r s

/-- While busy, a word at CMD other than DEADLINE's is refused (R67, R101). -/
theorem presentWord_of_busy {w : Word} {s : State} {j : Job} (hj : s.job = some j) (hw : w ≠ 0x000000FF) :
    presentWord w s = .next s.busError := by
  unfold presentWord
  split
  · next i hd => exact exec_of_busy hj fun hi => hw (decode_eq_deadline (hi ▸ hd))
  · exact State.whenIdle_of_busy hj _ _

/-- DEADLINE completes OKAY whatever it ends (R113, R114). -/
theorem exec_deadline_okay (s : State) : ∃ t, exec .deadline s = .next t ∧ t.resp = some .okay := by
  simp only [exec, execDeadline, State.respond_job]
  split
  · exact ⟨_, rfl, rfl⟩
  · split
    · exact ⟨_, rfl, by rw [rxTimeout_frame]; rfl⟩
    · exact ⟨_, rfl, rfl⟩

/-! The BUF window (R65, R66). -/

theorem bufAccess_of_busy {s : State} {j : Job} (hj : s.job = some j) (a : Nat) (tr : Transfer) :
    bufAccess a tr s = .next s.busError := by
  simp [bufAccess, State.busy, hj]

theorem bufAccess_read_ok {s : State} {a : Nat} {n : Size} {bs : List Byte} (hj : s.job = none)
    (h : s.readSlice a n.bytes = .ok bs) :
    bufAccess a (.read n) s = .next (s.respond (.data (.ofBytes n bs))) := by
  simp [bufAccess, State.busy, hj, h]

theorem bufAccess_read_error {s : State} {a : Nat} {n : Size} {f : Fault} (hj : s.job = none)
    (h : s.readSlice a n.bytes = .error f) : bufAccess a (.read n) s = .fault f := by
  simp [bufAccess, State.busy, hj, h]

theorem bufAccess_write {s : State} {a : Nat} {d : Datum} (hj : s.job = none)
    (hle : a + d.size.bytes ≤ s.cfg.bufBytes) :
    bufAccess a (.write d) s = .next (({ s with buf := s.buf.place a d.toBytes } : State).respond .okay) := by
  have hw := State.writeSlice_of_le (bs := d.toBytes) (d.length_toBytes.symm ▸ hle)
  simp [bufAccess, State.busy, hj, hw]

/-- A slice read stops at its first UNDEF byte. -/
theorem State.readSlice_error_of_bufRead {s : State} {a n k : Nat} {g : Fault} (hk : k < n)
    (h : s.bufRead (a + k) = .error g) :
    ∃ i f, i ≤ k ∧ s.bufRead (a + i) = .error f ∧ s.readSlice a n = .error f := by
  induction n generalizing a k with
  | zero => cases hk
  | succ n ih =>
    cases hb : s.bufRead a with
    | error f => exact ⟨0, f, Nat.zero_le k, hb, by rw [State.readSlice, hb]⟩
    | ok b =>
      cases k with
      | zero => rw [Nat.add_zero, hb] at h; cases h
      | succ k =>
        rw [Nat.add_comm k, ← Nat.add_assoc] at h
        obtain ⟨i, f, hi, hf, hslice⟩ := ih (Nat.lt_of_succ_lt_succ hk) h
        refine ⟨i + 1, f, Nat.succ_le_succ hi, ?_, by rw [State.readSlice, hb]; simp only [hslice]⟩
        rw [Nat.add_comm i, ← Nat.add_assoc, hf]

/-- Byte `k` of a value is its `k`-th, least significant first (R10, R65). -/
theorem Datum.getElem_toBytes (d : Datum) {k : Nat} (hk : k < d.toBytes.length) :
    d.toBytes[k] = (d.toWord >>> (8 * k)).setWidth 8 := by
  rw [BitVec.setWidth_ushiftRight_eq_extractLsb]
  rw [Datum.length_toBytes] at hk
  cases d with
  | byte v =>
    obtain rfl : k = 0 := Nat.lt_one_iff.1 hk
    exact ((BitVec.extractLsb'_setWidth_of_le (by decide)).trans BitVec.extractLsb'_eq_self).symm
  | half v =>
    simp only [Datum.size, Size.bytes] at hk
    interval_cases k <;> exact (BitVec.extractLsb'_setWidth_of_le (by decide)).symm
  | word v =>
    simp only [Datum.size, Size.bytes] at hk
    interval_cases k <;> rfl

/-- Concatenation is place value. -/
theorem toNat_append_eq_add {m n : Nat} (x : BitVec m) (y : BitVec n) :
    (x ++ y).toNat = x.toNat * 2 ^ n + y.toNat := by
  rw [BitVec.toNat_append, ← Nat.shiftLeft_add_eq_or_of_lt y.isLt, Nat.shiftLeft_eq]

theorem toNat_le16 (b0 b1 : Byte) : (le16 b0 b1).toNat = b0.toNat + b1.toNat * 2 ^ 8 :=
  (toNat_append_eq_add b1 b0).trans (Nat.add_comm ..)

theorem toNat_le32 (b0 b1 b2 b3 : Byte) :
    (le32 b0 b1 b2 b3).toNat = b0.toNat + b1.toNat * 2 ^ 8 + b2.toNat * 2 ^ 16 + b3.toNat * 2 ^ 24 := by
  refine (toNat_append_eq_add (b3 ++ b2 ++ b1) b0).trans ?_
  rw [toNat_append_eq_add, toNat_append_eq_add]
  omega

theorem Datum.size_ofBytes (n : Size) (bs : List Byte) : (Datum.ofBytes n bs).size = n := by
  cases n <;> rfl

/-- The value that bytes make, least significant first (R10, R65). -/
theorem Datum.toNat_ofBytes (n : Size) (b : Nat → Byte) :
    (Datum.ofBytes n ((List.range n.bytes).map b)).toWord.toNat =
      ((List.range n.bytes).map fun k => (b k).toNat * 2 ^ (8 * k)).sum := by
  cases n <;> simp only [Size.bytes, List.sum_range_succ, List.range_zero, List.map_nil, List.sum_nil]
  case byte =>
    have hword : ((b 0).setWidth 32).toNat = (b 0).toNat := BitVec.toNat_setWidth_of_le (by decide)
    exact hword.trans (by omega)
  case half =>
    have hword : ((le16 (b 0) (b 1)).setWidth 32).toNat = (le16 (b 0) (b 1)).toNat :=
      BitVec.toNat_setWidth_of_le (by decide)
    exact hword.trans ((toNat_le16 ..).trans (by omega))
  case word => exact (toNat_le32 (b 0) (b 1) (b 2) (b 3)).trans (by omega)

/-- A legal write while idle sets its bytes and no other (R65). -/
theorem hostAccess_write_window {s : State} {off : Word} {d : Datum} {a : Nat} (hj : s.job = none)
    (hoff : off.toNat = 0x10000 + a) (halign : off.toNat % d.size.bytes = 0) (hle : a + d.size.bytes ≤ s.cfg.bufBytes) :
    ∃ t, hostAccess off (.write d) s = .next t ∧ t = { s with resp := some .okay, buf := t.buf } ∧
      (∀ k, k < d.size.bytes → t.buf.read (a + k) = some ((d.toWord >>> (8 * k)).setWidth 8)) ∧
      (∀ x, x < a ∨ a + d.size.bytes ≤ x → t.buf.read x = s.buf.read x) := by
  have hp : place s.cfg off.toNat (Transfer.write d).size = some (.buf a) := place_window hoff halign hle
  rw [hostAccess_of_window hp, bufAccess_write hj hle]
  refine ⟨_, rfl, rfl, fun k hk => ?_, fun x hx => ?_⟩
  · rw [← d.length_toBytes] at hk
    simp [Memory.read_place, hk, Datum.getElem_toBytes]
  · rw [State.respond_buf, Memory.read_place, dif_neg]
    rw [d.length_toBytes]
    omega

/-- A legal read while idle of defined bytes returns the value they make (R65). -/
theorem hostAccess_read_window {s : State} {off : Word} {n : Size} {a : Nat} {b : Nat → Byte} (hj : s.job = none)
    (hoff : off.toNat = 0x10000 + a) (halign : off.toNat % n.bytes = 0) (hle : a + n.bytes ≤ s.cfg.bufBytes)
    (hdef : ∀ k, k < n.bytes → s.buf.read (a + k) = some (b k)) :
    ∃ d, hostAccess off (.read n) s = .next (s.respond (.data d)) ∧ d.size = n ∧
      d.toWord.toNat = ((List.range n.bytes).map fun k => (b k).toNat * 2 ^ (8 * k)).sum := by
  have hp : place s.cfg off.toNat (Transfer.read n).size = some (.buf a) := place_window hoff halign hle
  have hslice : s.readSlice a n.bytes = .ok ((List.range n.bytes).map b) := by
    refine State.readSlice_eq_ok.2 ⟨by simp, fun k hk => State.bufRead_eq_ok.2 ?_⟩
    simp only [List.length_map, List.length_range] at hk
    exact ⟨by omega, by simpa using hdef k hk⟩
  rw [hostAccess_of_window hp, bufAccess_read_ok hj hslice]
  exact ⟨_, rfl, Datum.size_ofBytes .., Datum.toNat_ofBytes ..⟩

/-- A legal read while idle of an UNDEF byte faults (R66). -/
theorem hostAccess_read_undef {s : State} {off : Word} {n : Size} {a k : Nat} (hj : s.job = none)
    (hoff : off.toNat = 0x10000 + a) (halign : off.toNat % n.bytes = 0) (hle : a + n.bytes ≤ s.cfg.bufBytes)
    (hk : k < n.bytes) (hundef : s.buf.read (a + k) = none) :
    ∃ x, hostAccess off (.read n) s = .fault (.undefByte x) ∧ a ≤ x ∧ x ≤ a + k ∧ s.buf.read x = none := by
  have hp : place s.cfg off.toNat (Transfer.read n).size = some (.buf a) := place_window hoff halign hle
  have hbyte : s.bufRead (a + k) = .error (.undefByte (a + k)) :=
    State.bufRead_eq_error.2 (.inl ⟨by omega, hundef, rfl⟩)
  obtain ⟨i, f, hi, hf, hslice⟩ := State.readSlice_error_of_bufRead hk hbyte
  rw [hostAccess_of_window hp, bufAccess_read_error hj hslice]
  rcases State.bufRead_eq_error.1 hf with ⟨-, hnone, rfl⟩ | ⟨hge, -⟩
  · exact ⟨a + i, rfl, Nat.le_add_right .., Nat.add_le_add_left hi a, hnone⟩
  · omega

theorem bufAccess_read_eq_next {s t : State} {a : Nat} {n : Size} (h : bufAccess a (.read n) s = .next t) :
    ∃ r, t = s.respond r ∧ ∀ es q, bufAccess a (.read n) { s with agenda := es, resp := q } =
      .next { s with agenda := es, resp := some r } := by
  rcases Option.eq_none_or_eq_some s.job with hj | ⟨j, hj⟩
  · cases hr : s.readSlice a n.bytes with
    | error f => rw [bufAccess_read_error hj hr] at h; cases h
    | ok bs =>
      rw [bufAccess_read_ok hj hr] at h
      cases h
      exact ⟨_, rfl, fun es q =>
        bufAccess_read_ok (s := { s with agenda := es, resp := q }) hj (State.readSlice_congr hr rfl rfl)⟩
  · rw [bufAccess_of_busy hj] at h
    cases h
    exact ⟨_, rfl, fun es q => bufAccess_of_busy (s := { s with agenda := es, resp := q }) hj ..⟩

/-- A read that answers has changed only the response, and answers the same whatever agenda and last response it
meets (R71). -/
theorem hostAccess_read_eq_next {s t : State} {off : Word} {n : Size} (h : hostAccess off (.read n) s = .next t) :
    ∃ r, t = s.respond r ∧ ∀ es q, hostAccess off (.read n) { s with agenda := es, resp := q } =
      .next { s with agenda := es, resp := some r } := by
  cases hp : place s.cfg off.toNat n with
  | none =>
    rw [hostAccess_of_nowhere hp] at h
    cases h
    exact ⟨_, rfl, fun _ _ => hostAccess_of_nowhere hp⟩
  | some p =>
    cases p with
    | reg r =>
      rw [hostAccess_read_of_reg hp] at h
      cases h
      refine ⟨_, rfl, fun es q => (hostAccess_read_of_reg (s := { s with agenda := es, resp := q }) hp).trans ?_⟩
      cases r <;> rfl
    | buf a =>
      rw [hostAccess_of_window hp] at h
      obtain ⟨r, ht, hagain⟩ := bufAccess_read_eq_next h
      exact ⟨r, ht, fun es q =>
        (hostAccess_of_window (s := { s with agenda := es, resp := q }) hp).trans (hagain es q)⟩

/-! The statements of 20_memory.md. -/

/-- Settles O6: `hostAccessAt` subtracts BASE, and what is left has 32 bits exactly inside the block. -/
theorem baseAddressSelectsTheOffset : Obligations.BaseAddressSelectsTheOffset := by
  refine ⟨fun s off tr rest ha => ?_, fun s addr tr rest ha hout => ?_⟩
  · rw [step_of_cons ha, step_host rfl]
    exact hostAccessAt_base off tr { s with agenda := rest }
  · rw [step_of_cons ha]
    exact if_neg (by dsimp only; omega)

/-- Settles O42: an illegal access leads nowhere. -/
theorem illegalAccessesRaiseBusError : Obligations.IllegalAccessesRaiseBusError := by
  intro s off tr rest ha hill
  rw [step_host ha]
  exact hostAccess_of_nowhere (IllegalAccess.place hill)

/-- Settles O43: each register's offset leads to it. -/
theorem registerAccessesAtTheirOffsets : Obligations.RegisterAccessesAtTheirOffsets := by
  refine ⟨fun s off v rest ha hoff => ?_, fun s off v rest ha hmem => ?_, fun s off v rest hj ha => ?_⟩
  · rw [step_host ha]
    exact hostAccess_write_readOnly hoff v _
  · rw [step_host ha]
    exact hostAccess_read_wordReads (s := { s with agenda := rest }) hmem
  · have hstored (t : State) : ({ s with agenda := rest } : State).writeIdle t = t.respond .okay :=
      State.writeIdle_of_idle (s := { s with agenda := rest }) hj t
    rw [step_host ha]
    refine ⟨?_, ?_, ?_, ?_⟩ <;> rintro rfl
    · exact (hostAccess_writeReg .addr v _).trans (congrArg _ (hstored _))
    · exact (hostAccess_writeReg .len v _).trans (congrArg _ (hstored _))
    · exact (hostAccess_writeReg .crc v _).trans (congrArg _ (hstored _))
    · exact (hostAccess_writeReg .claim v _).trans (congrArg _ (hstored _))

/-- Settles O45: a legal write places the value's bytes, a legal read takes them, and stops at the first UNDEF one. -/
theorem bufWindowIsLittleEndian : Obligations.BufWindowIsLittleEndian := by
  refine ⟨?misaligned, ?write, ?read, ?undef⟩
  case misaligned =>
    intro s off tr rest ha hge halign
    exact illegalAccessesRaiseBusError s off tr rest ha (.inr (.inr (.inr ⟨hge, halign⟩)))
  case write =>
    intro s off d a rest hj ha hoff halign hle
    rw [step_host ha]
    exact hostAccess_write_window (s := { s with agenda := rest }) hj hoff halign hle
  case read =>
    intro s off n a b rest hj ha hoff halign hle hdef
    rw [step_host ha]
    exact hostAccess_read_window (s := { s with agenda := rest }) hj hoff halign hle hdef
  case undef =>
    intro s off n a k rest hj ha hoff halign hle hk hundef
    rw [step_host ha]
    exact hostAccess_read_undef (s := { s with agenda := rest }) hj hoff halign hle hk hundef

/-- Settles O46: by the place of the access; the window, the stored registers and CMD refuse, the rest answers. -/
theorem accessesWhileBusy : Obligations.AccessesWhileBusy := by
  intro s j off tr rest hj ha
  replace hj : State.job { s with agenda := rest } = some j := hj
  rw [step_host ha]
  refine ⟨?window, ?stored, ?deadline, ?cmd, ?readOnly, ?read, ?rows⟩
  case window =>
    intro hge
    cases hp : place ({ s with agenda := rest } : State).cfg off.toNat tr.size with
    | none => exact hostAccess_of_nowhere hp
    | some p =>
      cases p with
      | reg r =>
        obtain ⟨-, hlt, -⟩ := place_eq_reg hp
        simp only [Config.regionEnd] at hlt
        omega
      | buf a => exact (hostAccess_of_window hp).trans (bufAccess_of_busy hj a tr)
  case stored =>
    rintro v rfl hoff
    obtain ⟨r, hr, rfl⟩ := List.mem_map.1 (show off ∈ Reg.stored.map Reg.offset from hoff)
    exact (hostAccess_writeReg r v _).trans (writeReg_of_busy hr hj v)
  case deadline =>
    rintro rfl rfl
    exact ⟨rfl, exec_deadline_okay _⟩
  case cmd =>
    rintro v rfl rfl hv
    exact presentWord_of_busy hj hv
  case readOnly =>
    rintro v rfl hoff
    exact hostAccess_write_readOnly hoff v _
  case read =>
    rintro v rfl hmem
    exact hostAccess_read_wordReads (s := { s with agenda := rest }) hmem
  case rows =>
    intro hlt halign
    obtain ⟨r, hr⟩ := Reg.exists_offset hlt halign
    exact ⟨_, State.mem_wordReads.2 ⟨r, hr, rfl⟩⟩

/-- Settles O47: what a read answers depends neither on the agenda nor on the last response. -/
theorem readsHaveNoSideEffect : Obligations.ReadsHaveNoSideEffect := by
  intro s t off n rest ha h
  rw [step_host ha] at h
  obtain ⟨r, rfl, hagain⟩ := hostAccess_read_eq_next h
  exact ⟨r, rfl, (step_host rfl).trans (hagain rest (some r))⟩

end Sys2Proof.Machine
end

section
/-! A checksum job in progress under every interleaving (R104, R127 to R129): no other agent's step touches the bytes it
has still to read or CRC, and an engine step folds the next one. -/

namespace Sys2Proof.Machine

/-- Every agent's step but the engine's and a reset leaves what a checksum job works on. -/
theorem ChecksumAt.congr {op : JobOp} {c0 : Word} {bs : List Byte} {s t : State} {j : Job}
    (h : ChecksumAt op c0 bs s j) (hcfg : t.cfg = s.cfg := by rfl) (hbuf : t.buf = s.buf := by rfl)
    (hjob : t.job = s.job := by rfl) (hcrc : t.crc = s.crc := by rfl) (hstatus : t.status = s.status := by rfl) :
    ChecksumAt op c0 bs t j where
  job := hjob.trans h.job
  opIs := h.opIs
  total := h.total
  progress := h.progress
  source := State.readSlice_congr h.source hcfg hbuf
  folded := hcrc.trans h.folded
  status := hstatus.trans h.status

/-- A checksum job finished OK: all of `bs` is in CRC, and MATCH compares CRCOUT with CLAIM for a CRC_CHECK only
(R127 to R129). -/
structure ChecksumDone (op : JobOp) (c0 : Word) (bs : List Byte) (claim : Word) (t : State) : Prop where
  job : t.job = none
  folded : t.crc = crcFold c0 bs
  done : t.status.done = true
  result : t.status.result = .ok
  matched : t.status.matched = decide (op = .crcCheck ∧ ~~~ crcFold c0 bs = claim)

/-- The byte a checksum step reads is the next one of `bs`, and enters CRC (R127). -/
theorem ChecksumAt.folded_succ {op : JobOp} {c0 : Word} {bs : List Byte} {s : State} {j : Job} {b : Byte}
    (h : ChecksumAt op c0 bs s j) (hb : s.bufRead (j.a.toNat + j.i.toNat) = .ok b) :
    (s.crcByte b).crc = crcFold c0 (bs.take (j.i.toNat + 1)) := by
  have hlt : j.i.toNat < bs.length := h.total ▸ h.progress
  obtain ⟨-, hread⟩ := State.readSlice_eq_ok.1 h.source
  have hbyte : bs[j.i.toNat] = b := Except.ok.inj ((hread _ hlt).symm.trans hb)
  rw [State.crcByte_crc, h.folded, crcFold_take_succ (List.getElem?_eq_some_iff.2 ⟨hlt, hbyte⟩)]

/-- A checksum job's engine step: it goes on with one byte more in CRC, or has folded the last one and finishes OK. -/
theorem ChecksumAt.checksumStep {op : JobOp} {c0 : Word} {bs : List Byte} {s t : State} {j : Job}
    (h : ChecksumAt op c0 bs s j) (hstep : checksumStep j s = .next t) :
    (∃ j', ChecksumAt op c0 bs t j' ∧ j'.i = j.i + 1) ∨ ChecksumDone op c0 bs s.claim t := by
  obtain ⟨b, hb, ht⟩ := checksumStep_eq_next hstep
  have hsucc := toNat_succ_of_lt h.progress
  have hcrc := h.folded_succ hb
  have hall (hn : j.i + 1 = j.n) : (s.crcByte b).crc = crcFold c0 bs := by
    rw [hcrc, List.take_of_length_le (by rw [← hsucc, hn, h.total])]
  rcases ht with ⟨hn, hcheck, rfl⟩ | ⟨hn, hother, rfl⟩ | ⟨hne, rfl⟩
  · refine .inr ⟨rfl, hall hn, rfl, rfl, ?_⟩
    have hop : op = .crcCheck := h.opIs.symm.trans hcheck
    rw [State.finish_status, State.matchClaim_status, State.crcOut, hall hn]
    simp [hop, Bool.beq_eq_decide_eq]
  · refine .inr ⟨rfl, hall hn, rfl, rfl, ?_⟩
    have hop : op ≠ .crcCheck := h.opIs ▸ hother
    simp [h.status, busyStatus, hop]
  · exact .inl ⟨_, ⟨rfl, h.opIs, h.total, toNat_succ_lt_of_ne h.progress hne, State.readSlice_congr h.source rfl rfl,
      hsucc ▸ hcrc, h.status⟩, rfl⟩

/-- A busy checksum command's engine step is the checksum step (R127). -/
theorem engineStep_of_checksum {s : State} {j : Job} (hj : s.job = some j)
    (hop : j.op ∈ [JobOp.crcBuf, .crcCalc, .crcCheck]) : engineStep s = checksumStep j s := by
  simp only [List.mem_cons, List.not_mem_nil, or_false] at hop
  rcases hop with hop | hop | hop <;> simp [engineStep, hj, hop]

/-- Settles O23: a DEADLINE does not end a checksum job, and of the other steps only the engine's moves it on. -/
theorem checksumJobSurvivesEveryInterleaving : Obligations.ChecksumJobSurvivesEveryInterleaving := by
  intro op c0 bs s t j hop h hstep
  rcases step_busy_eq_next h.job hstep with hreset | ⟨-, heng⟩ | ⟨eos, rdy, r, rfl⟩ | ⟨-, hrx, -⟩
  · exact .inr (.inr hreset)
  · have h' : ChecksumAt op c0 bs { s with agenda := s.agenda.tail } j := h.congr
    rw [engineStep_of_checksum h'.job (h.opIs.symm ▸ hop)] at heng
    rcases h'.checksumStep heng with ⟨j', hgo, hi⟩ | ⟨hjob, hcrc, hdone, hresult, hmatched⟩
    · exact .inl ⟨j', hgo, .inr hi⟩
    · exact .inr (.inl ⟨hjob, hcrc, hdone, hresult, hmatched⟩)
  · exact .inl ⟨j, h.congr, .inl rfl⟩
  · rw [h.opIs] at hrx
    simp only [List.mem_cons, List.not_mem_nil, or_false] at hop
    rcases hop with rfl | rfl | rfl <;> cases hrx

end Sys2Proof.Machine
end

section
/-! Command words (30_encoding.md): the decoder and the encoder are inverse, a row's mask and match say what its word
is, the words that decode are the well formed ones, and what CMD does with a word of either kind. -/

namespace Sys2Proof

/-! The round trip (R80, R82, R84). -/

theorem decode_encode (i : Instr) : decode (encode i) = .ok i := by
  rw [encode, decode_pack]
  cases i <;> rfl

theorem decode_eq_ok_iff {w : Word} {i : Instr} : decode w = .ok i ↔ w = encode i :=
  ⟨eq_encode_of_decode, fun h => h ▸ decode_encode i⟩

theorem Instr.wellFormed_eq_true (i : Instr) : i.wellFormed = true := by
  cases i <;> rfl

/-- Settles O1: decoding gives back what was encoded, and a word that decodes has its command's fields. -/
theorem decodeAndEncodeAgree : Obligations.DecodeAndEncodeAgree :=
  fun i => ⟨i.wellFormed_eq_true, fun _ => decode_eq_ok_iff⟩

/-- Settles O4: the legal words are their commands' words. -/
theorem wordsOfTheSpecDecode : Obligations.WordsOfTheSpecDecode :=
  ⟨decode_encode .nop, decode_encode (.crcByte 0x41), decode_encode .crcCheck, decode_encode (.encode 0x53),
    decode_encode .declen, decode_encode .probe, decode_encode .rxBody, decode_encode .deadline, rfl, rfl, rfl⟩

/-! The opcode map (R84). -/

theorem pack_inj {f g : CommandWord} : pack f = pack g ↔ f = g :=
  ⟨fun h => by rw [← unpack_pack f, h, unpack_pack], congrArg pack⟩

/-- A C0 row's mask keeps the whole word, so its match is the command's word. -/
theorem decode_eq_ok_iff_of_c0 (w : Word) (i : Instr) : decode w = .ok i ↔ w &&& 0xFFFFFFFF#32 = encode i := by
  rw [decode_eq_ok_iff, show w &&& 0xFFFFFFFF#32 = w from BitVec.and_allOnes]

/-- A CI row's mask keeps OP and RSV. -/
theorem and_ciMask (w : Word) : w &&& 0xFFFF00FF#32 = pack ⟨(unpack w).op, 0, (unpack w).rsv⟩ := by
  calc w &&& 0xFFFF00FF#32
    _ = pack (unpack w) &&& (BitVec.allOnes 16 ++ 0#8 ++ BitVec.allOnes 8) := by rw [pack_unpack]; rfl
    _ = pack ⟨(unpack w).op, 0, (unpack w).rsv⟩ := by
      rw [pack, pack, BitVec.and_append, BitVec.and_append, BitVec.and_allOnes, BitVec.and_allOnes, BitVec.and_zero]
      rfl

/-- A CI row's word is the match with the operand in IMM8. -/
theorem eq_pack_iff_of_ci {w : Word} {op b : Byte} :
    w = pack ⟨op, b, 0⟩ ↔ w &&& 0xFFFF00FF#32 = pack ⟨op, 0, 0⟩ ∧ b = (unpack w).imm8 := by
  rw [and_ciMask, pack_inj]
  conv_lhs => rw [← pack_unpack w, pack_inj]
  cases unpack w
  simp only [CommandWord.mk.injEq]
  tauto

/-- Two rows whose masks keep OP select no common word when their OPs differ. -/
theorem not_selected_by_both {p q : Word × Word}
    (h : p.2 &&& 0xFF = 0xFF ∧ q.2 &&& 0xFF = 0xFF ∧ p.1 &&& 0xFF ≠ q.1 &&& 0xFF) (w : Word) :
    ¬ (w &&& p.2 = p.1 ∧ w &&& q.2 = q.1) := by
  obtain ⟨hp, hq, hne⟩ := h
  rintro ⟨hwp, hwq⟩
  exact hne (by rw [← hwp, ← hwq, BitVec.and_assoc, BitVec.and_assoc, hp, hq])

/-- Settles O2: a C0 row's word is its match, a CI row's its match and any IMM8; the rows have different OPs. -/
theorem decoderSelectsTheOpcodeMapRow : Obligations.DecoderSelectsTheOpcodeMapRow := by
  refine ⟨fun w => ?rows, List.Pairwise.imp not_selected_by_both (by decide)⟩
  have hc0 := decode_eq_ok_iff_of_c0 w
  exact ⟨hc0 .nop, hc0 .crcInit, fun _ => decode_eq_ok_iff.trans eq_pack_iff_of_ci, hc0 .crcBuf, hc0 .crcCalc,
    hc0 .crcCheck, fun _ => decode_eq_ok_iff.trans eq_pack_iff_of_ci, hc0 .declen, hc0 .probe, hc0 .rxHdr, hc0 .rxBody,
    hc0 .rxFlush, hc0 .rxRaw, hc0 .deadline⟩

/-! Legality (R80, R81, R85). -/

/-- The OPs of format CI (R81, R84). -/
theorem formatOf_eq_ci {op : Byte} : formatOf op = some .ci ↔ op = 0x02#8 ∨ op = 0x10#8 := by
  unfold formatOf
  split
  · next hci => simp [hci]
  · next hci => split <;> simp [hci]

/-- The OPs of the opcode map are all but those of three ranges (R84, R85). -/
theorem formatOf_eq_none {op : Byte} :
    formatOf op = none ↔ (0x06 ≤ op.toNat ∧ op.toNat ≤ 0x0F) ∨ (0x12 ≤ op.toNat ∧ op.toNat ≤ 0x1F) ∨
      (0x25 ≤ op.toNat ∧ op.toNat ≤ 0xFE) := by
  have hop := op.isLt
  unfold formatOf
  split
  · next hci =>
    simp only [reduceCtorEq, false_iff]
    rcases hci with rfl | rfl <;> decide
  · next hci =>
    simp only [ite_eq_right_iff, reduceCtorEq, imp_false, List.mem_cons, List.not_mem_nil, or_false, BitVec.toNat_eq,
      BitVec.toNat_ofNat] at hci ⊢
    omega

/-- Legal fields: RSV is 0, and OP has a format, which for C0 asks for IMM8 = 0 (R80, R81, R85). -/
theorem CommandWord.wellFormed_iff {f : CommandWord} :
    f.wellFormed = true ↔ f.rsv = 0 ∧ formatOf f.op ≠ none ∧ (formatOf f.op = some .ci ∨ f.imm8 = 0) := by
  simp only [wellFormed, rsvClear, opKnown, immAllowed, Bool.and_eq_true, beq_iff_eq, and_assoc]
  cases hfmt : formatOf f.op with
  | none => simp
  | some fmt => cases fmt <;> simp

/-- An OP of format C0, with IMM8 and RSV 0, makes the fields of a command (R84). -/
theorem exists_fields_of_c0 {op : Byte} (h : formatOf op = some .c0) : ∃ i : Instr, i.fields = ⟨op, 0, 0⟩ := by
  unfold formatOf at h
  rcases ite_eq_cases h with ⟨-, h⟩ | ⟨-, h⟩
  · cases h
  rcases ite_eq_cases h with ⟨hmem, -⟩ | ⟨-, h⟩
  · simp only [List.mem_cons, List.not_mem_nil, or_false] at hmem
    rcases hmem with rfl | rfl | rfl | rfl | rfl | rfl | rfl | rfl | rfl | rfl | rfl | rfl
    exacts [⟨.nop, rfl⟩, ⟨.crcInit, rfl⟩, ⟨.crcBuf, rfl⟩, ⟨.crcCalc, rfl⟩, ⟨.crcCheck, rfl⟩, ⟨.declen, rfl⟩,
      ⟨.probe, rfl⟩, ⟨.rxHdr, rfl⟩, ⟨.rxBody, rfl⟩, ⟨.rxFlush, rfl⟩, ⟨.rxRaw, rfl⟩, ⟨.deadline, rfl⟩]
  · cases h

/-- Legal fields are a command's. -/
theorem exists_fields_of_wellFormed {f : CommandWord} (h : f.wellFormed = true) : ∃ i : Instr, i.fields = f := by
  obtain ⟨op, imm8, rsv⟩ := f
  obtain ⟨rfl, hknown, himm⟩ := CommandWord.wellFormed_iff.1 h
  cases hfmt : formatOf op with
  | none => exact absurd hfmt hknown
  | some fmt =>
    cases fmt with
    | c0 =>
      obtain rfl : imm8 = 0 := himm.resolve_left (by simp [hfmt])
      exact exists_fields_of_c0 hfmt
    | ci =>
      rcases formatOf_eq_ci.1 hfmt with rfl | rfl
      · exact ⟨.crcByte imm8, rfl⟩
      · exact ⟨.encode imm8, rfl⟩

/-- The decoder rejects exactly the words whose fields are not legal (R85). -/
theorem exists_decode_error_iff {w : Word} : (∃ e, decode w = .error e) ↔ ¬ (unpack w).wellFormed = true := by
  constructor
  · rintro ⟨e, he⟩ hwf
    obtain ⟨i, hi⟩ := exists_fields_of_wellFormed hwf
    rw [← pack_unpack w, ← hi, ← encode, decode_encode] at he
    cases he
  · intro hwf
    cases hd : decode w with
    | error e => exact ⟨e, rfl⟩
    | ok i => exact absurd (fields_of_decode hd ▸ i.wellFormed_eq_true) hwf

namespace Machine

/-! A word at CMD (R100, R111). -/

theorem presentWord_of_ok {w : Word} {i : Instr} (h : decode w = .ok i) (s : State) : presentWord w s = exec i s := by
  rw [presentWord, h]

theorem presentWord_of_error {w : Word} {e : Reject} (h : decode w = .error e) (s : State) :
    presentWord w s = illegalWord w s := by
  rw [presentWord, h]

/-- An illegal word's next state: ILLEGAL and its OP while idle, the refusal while busy (R101, R111). -/
theorem illegalWord_eq (w : Word) (s : State) :
    illegalWord w s = .next (if s.job = none
      then { s with resp := some .okay, status := doneStatus (w.extractLsb' 0 8) .illegal } else s.busError) := by
  cases hj : s.job with
  | none =>
    rw [illegalWord, State.whenIdle_of_idle hj, if_pos rfl]
    cases s; cases hj; rfl
  | some j => rw [illegalWord, State.whenIdle_of_busy hj, if_neg nofun]

/-- Settles O3: a word is illegal when its fields are not well formed, and CMD ends it as ILLEGAL or refuses it. -/
theorem illegalWordsFinishIllegal : Obligations.IllegalWordsFinishIllegal := by
  intro w
  refine ⟨?_, fun e s rest he ha => ?_⟩
  · rw [exists_decode_error_iff, CommandWord.wellFormed_iff, formatOf_eq_ci, ne_eq, formatOf_eq_none]
    simp only [unpack]
    tauto
  · rw [step_cmdWrite ha, presentWord_of_error he, illegalWord_eq]
    rfl

/-- Settles O5: a legal word at CMD runs its command. -/
theorem stepRunsTheDecodedCommand : Obligations.StepRunsTheDecodedCommand := by
  intro s w i rest ha hd _
  rw [step_cmdWrite ha, presentWord_of_ok hd]

end Machine
end Sys2Proof
end

section
/-! The control commands (40_control.md): the gate of a busy machine, NOP, DEADLINE and its race with the engine, and
which start rules start a job (R101, R106, R110 to R115). -/

namespace Sys2Proof.Machine

/-- Settles O7: the refusal of `presentWord_of_busy`, as a step. -/
theorem busyRefusesEveryWordButDeadline : Obligations.BusyRefusesEveryWordButDeadline := by
  intro s j w rest hj hw ha
  rw [step_cmdWrite ha]
  exact presentWord_of_busy (s := { s with agenda := rest }) hj hw

/-- Settles O10: accepted and finished in one step while idle, refused while busy. -/
theorem nopFinishesOk : Obligations.NopFinishesOk := by
  refine ⟨rfl, fun s hj => ?_, fun s j hj => exec_of_busy hj nofun⟩
  rw [exec, execNop, State.whenIdle_of_idle hj]
  cases s; cases hj; rfl

/-! DEADLINE (R113, R114). -/

theorem exec_deadline_of_idle {s : State} (hj : s.job = none) : exec .deadline s = .next (s.respond .okay) := by
  simp [exec, execDeadline, hj]

theorem exec_deadline_of_busy {s : State} {j : Job} (hj : s.job = some j) :
    exec .deadline s = .next (if j.op.isRx then rxTimeout j (s.respond .okay) else s.respond .okay) := by
  simp only [exec, execDeadline, State.respond_job, hj]
  split <;> rfl

/-- Settles O11: the timeout rule of each RX job, by its op; no other job has one. -/
theorem deadlineEndsOnlyABusyReceive : Obligations.DeadlineEndsOnlyABusyReceive := by
  refine ⟨rfl, fun s j hj => ?_, fun s hj => exec_deadline_of_idle hj⟩
  rw [exec_deadline_of_busy hj, rxTimeout]
  cases j.op <;> rfl

/-! An engine turn without an enabled step (R104, R219). -/

theorem engineStep_of_idle {s : State} (hj : s.job = none) : engineStep s = .next s := by
  rw [engineStep, hj]

/-- Facing EMPTY an RX command has no step (R160). -/
theorem rxStep_of_empty {s : State} (j : Job) (hq : s.rxq = []) (hEos : s.rxEos = false) : rxStep j s = .next s := by
  rw [rxStep, State.rxHead_eq_empty.2 ⟨hq, hEos⟩]

/-- Facing EOS an RX command closes (R161). -/
theorem rxStep_of_eos {s : State} (j : Job) (hq : s.rxq = []) (hEos : s.rxEos = true) :
    rxStep j s = .next (rxClose j s) := by
  rw [rxStep, State.rxHead_eq_eos.2 ⟨hq, hEos⟩]

/-- Settles O13: idle, facing EMPTY, and facing TXREADY = 0. -/
theorem engineWaitsWithoutAStep : Obligations.EngineWaitsWithoutAStep := by
  refine ⟨fun s hj => engineStep_of_idle hj, fun s j hj hrx hq hEos => ?_, fun s j hj hop hrdy => ?_⟩
  · exact (engineStep_of_isRx hj hrx).trans (rxStep_of_empty j hq hEos)
  · rw [engineStep_of_encode hj hop, encodeStep, hrdy]
    rfl

/-! The race of DEADLINE and the engine (R115): once either has ended the command, the other's turn is one of an idle
machine. -/

theorem step_deadline {s : State} {rest : List Event} (ha : s.agenda = cmdWrite 0x000000FF :: rest) :
    step s = exec .deadline { s with agenda := rest } := by
  rw [step_cmdWrite ha]
  exact presentWord_of_ok (decode_encode .deadline) _

theorem step_deadline_of_idle {s : State} {rest : List Event} (hj : s.job = none)
    (ha : s.agenda = cmdWrite 0x000000FF :: rest) : step s = .next { s with agenda := rest, resp := some .okay } := by
  rw [step_deadline ha]
  exact exec_deadline_of_idle (s := { s with agenda := rest }) hj

theorem step_engine_of_idle {s : State} {rest : List Event} (hj : s.job = none) (ha : s.agenda = .engine :: rest) :
    step s = .next { s with agenda := rest } := by
  rw [step_of_cons ha]
  exact engineStep_of_idle (s := { s with agenda := rest }) hj

/-- A DEADLINE that comes before the engine's turn ends the RX command with TIMEDOUT and leaves the stream, and the turn
has nothing to do. -/
theorem deadline_before_engine {s : State} {j : Job} {rest : List Event} (hj : s.job = some j) (hrx : j.op.isRx = true)
    (ha : s.agenda = cmdWrite 0x000000FF :: .engine :: rest) :
    ∃ u, step s = .next u ∧ u.job = none ∧ u.status.done = true ∧ u.status.result = .timedOut ∧ u.rxq = s.rxq ∧
      u.rxCnt = s.rxCnt ∧ ∀ t, step u = .next t → t = { u with agenda := rest } := by
  obtain ⟨k, hk⟩ := rxTimeout_eq j (({ s with agenda := .engine :: rest } : State).respond .okay)
  have hstep := (step_deadline ha).trans (exec_deadline_of_busy (s := { s with agenda := .engine :: rest }) hj)
  rw [if_pos hrx, hk] at hstep
  refine ⟨_, hstep, rfl, rfl, rfl, rfl, rfl, fun t h => ?_⟩
  rw [step_engine_of_idle rfl rfl] at h
  cases h
  rfl

/-- The engine step of the last byte of an RX command finishes it with OK (R160). -/
theorem rxStep_last {s : State} {j : Job} {b : Byte} {q : List Byte} (hinv : Inv s) (hj : s.job = some j)
    (hq : s.rxq = b :: q) (hn : j.i + 1 = j.n) :
    ∃ u, rxStep j s = .next u ∧ u.job = none ∧ u.status.done = true ∧ u.status.result = .ok ∧ u.rxq = q ∧
      u.rxCnt = s.rxCnt + 1 ∧ u.agenda = s.agenda := by
  obtain ⟨u, hu⟩ := rxStep_answers hinv (hinv.busyOk j hj)
  refine ⟨u, hu, ?_⟩
  have hhead : s.rxHead = .byte b := State.rxHead_eq_byte.2 ⟨q, hq⟩
  rcases rxStep_eq_next hu with ⟨he, -⟩ | ⟨he, -⟩ | ⟨b', j', v, -, hrule, hend⟩
  · rw [hhead] at he; cases he
  · rw [hhead] at he; cases he
  · obtain ⟨⟨x, rfl⟩, hframe, -⟩ := rxByteRule_frame hrule
    rcases hend with ⟨-, hc⟩ | ⟨hne, -⟩
    · obtain ⟨ver, dlen, claim, m, k, rfl⟩ := rxComplete_eq_next hc
      rw [hframe]
      simp [hq]
    · exact absurd hn hne

/-- Settles O12: whichever comes first leaves the machine idle, and the other then finds it so. -/
theorem deadlineRaceIsDecidedByTheFirst : Obligations.DeadlineRaceIsDecidedByTheFirst := by
  constructor
  · intro s j b q rest hinv hj hrx hq hn
    refine ⟨fun ha => ?_, fun ha => ?_⟩
    · obtain ⟨u, hu, hnone, hdone, hok, huq, hcnt, hagenda⟩ :=
        rxStep_last (s := { s with agenda := cmdWrite 0x000000FF :: rest }) hinv.congr hj hq hn
      refine ⟨u, ?_, hnone, hdone, hok, huq, hcnt, step_deadline_of_idle hnone hagenda⟩
      rw [step_of_cons ha]
      exact (engineStep_of_isRx (s := { s with agenda := cmdWrite 0x000000FF :: rest }) hj hrx).trans hu
    · rw [← hq]
      exact deadline_before_engine hj hrx ha
  · intro s j rest hj hrx hq hEos
    refine ⟨fun ha => ?_, fun ha => ?_⟩
    · obtain ⟨k, hk⟩ := rxClose_eq j { s with agenda := cmdWrite 0x000000FF :: rest }
      have hclose := (engineStep_of_isRx (s := { s with agenda := cmdWrite 0x000000FF :: rest }) hj hrx).trans
        (rxStep_of_eos j hq hEos)
      rw [hk] at hclose
      exact ⟨_, (step_of_cons ha).trans hclose, rfl, rfl, rfl, step_deadline_of_idle rfl rfl⟩
    · obtain ⟨u, hu, hnone, hdone, hres, -, -, hturn⟩ := deadline_before_engine hj hrx ha
      exact ⟨u, hu, hnone, hdone, hres, hturn⟩

/-! The start table (R106). -/

/-- A start rule that answers finished the command, where no job bears its opcode. -/
theorem StartRule.job_eq_none {i : Instr} {s t : State} (h : StartRule i s t)
    (hop : ∀ op : JobOp, op.code ≠ i.fields.op) : t.job = none := by
  rcases h.ends with ⟨hnone, -⟩ | ⟨j, -, hcode, -⟩
  · exact hnone
  · exact absurd hcode (hop j.op)

/-- Settles O9: by the exits of each start rule, in the order the rule checks them. -/
theorem startTableOfR106 : Obligations.StartTableOfR106 := by
  refine ⟨fun i s t hj h => ?_, fun w e s t hj hw h => ?_⟩
  · cases i <;> simp only [exec, execNop, execCrcInit, execCrcByte, execCrcBuf, execCrcCalc, execCrcCheck, execProbe,
      execEncode, execRxHdr, execRxBody, execRxFlush, execRxRaw, State.whenIdle_of_idle hj] at h ⊢
    case nop | crcInit | crcByte | rxFlush => cases h; rfl
    case declen => exact (startRule_of_execDeclen hj h).job_eq_none fun op => by cases op <;> decide
    case deadline =>
      cases (exec_deadline_of_idle hj).symm.trans h
      exact hj
    case crcBuf | crcCalc | crcCheck | rxRaw =>
      rcases State.checkRange_eq_next h with ⟨-, rfl⟩ | ⟨-, h⟩
      · simp
      · rcases ite_eq_cases h with ⟨hz, h⟩ | ⟨hnz, h⟩ <;> cases h
        · simpa using hz
        · simpa using hnz
    case encode =>
      rcases ite_eq_cases h with ⟨-, h⟩ | ⟨-, h⟩
      · cases h; simp
      · rcases State.checkRange_eq_next h with ⟨-, rfl⟩ | ⟨-, h⟩
        · simp
        · cases h; simp
    case rxHdr => cases h; exact ⟨_, rfl, rfl, rfl⟩
    case rxBody | probe =>
      rcases State.checkRange_eq_next h with ⟨-, rfl⟩ | ⟨-, h⟩
      · simp
      · cases h; simp [Config.headerBytes]
  · rw [presentWord_of_error hw, illegalWord_eq, if_pos hj] at h
    cases h
    exact hj

end Sys2Proof.Machine
end

section
/-! One engine step (R104): beside the frame of `EngineRule`, which bytes it moves, and which results it writes and when
(R29, R31 to R35, R42, R160 to R168). -/

namespace Sys2Proof.Machine

/-- A byte rule stores only for PROBE, RXRAW and the text of RXBODY, at J.a + J.i (R162, R165, R181). -/
theorem Job.storeAt_eq_some {j : Job} {a : Nat} (h : j.storeAt = some a) :
    (j.op ∈ [JobOp.probe, .rxRaw] ∨ (j.op = .rxBody ∧ j.i.toNat < j.n.toNat - 4)) ∧ a = j.a.toNat + j.i.toNat := by
  unfold Job.storeAt at h
  cases hop : j.op <;> simp only [hop] at h
  case probe | rxRaw => cases h; simp
  case rxBody =>
    rcases ite_eq_cases h with ⟨hlt, h⟩ | ⟨-, h⟩ <;> cases h
    exact ⟨.inr ⟨rfl, hlt⟩, rfl⟩
  all_goals cases h

/-- A byte rule writes BUF at most where the job stores its byte. -/
theorem rxByteRule_writes {j j' : Job} {b : Byte} {s u : State} (h : rxByteRule j b s = .ok (j', u)) :
    u.buf = s.buf ∨ ∃ a, j.storeAt = some a ∧ u.buf = s.buf.write a b := by
  obtain ⟨-, ⟨a, hat, -, -, rfl | ⟨-, rfl⟩⟩ | ⟨-, rfl⟩⟩ := rxByteRule_eq_ok h
  · exact .inr ⟨a, hat, rfl⟩
  · exact .inr ⟨a, hat, rfl⟩
  · exact .inl rfl

/-- A completion rule writes CLAIM only for RXBODY, DLEN only for RXHDR, VER only for PROBE (R163, R166, R182). -/
theorem rxComplete_results {j : Job} {s t : State} (h : rxComplete j s = .next t) :
    (j.op ≠ .rxBody → t.claim = s.claim) ∧ (j.op ≠ .rxHdr → t.dlen = s.dlen) ∧ (j.op ≠ .probe → t.ver = s.ver) := by
  cases hop : j.op <;> simp only [rxComplete, hop] at h
  case probe =>
    unfold probeComplete at h
    split at h
    · cases h
    · split at h <;> cases h <;> simp
  all_goals
    cases h
    simp

/-- What an engine step of the job `j` moves and writes, field by field. As in `EngineRule`, `simp` closes the fields that
hold by the written-out next state. -/
structure EngineMoves (j : Job) (s t : State) : Prop where
  rx : (t.rxq = s.rxq ∧ t.rxCnt = s.rxCnt) ∨
    (j.op.isRx = true ∧ ∃ b, s.rxq = b :: t.rxq ∧ t.rxCnt = s.rxCnt + 1) := by simp
  tx : (t.txOut = s.txOut ∧ t.txCnt = s.txCnt) ∨
    (j.op = .encode ∧ s.txReady = true ∧ ∃ b, t.txOut = s.txOut ++ [b] ∧ t.txCnt = s.txCnt + 1) := by simp
  buf : t.buf = s.buf ∨ ∃ a b, j.storeAt = some a ∧ t.buf = s.buf.write a b := by simp
  claim : j.op ≠ .rxBody → t.claim = s.claim := by simp
  dlen : j.op ≠ .rxHdr → t.dlen = s.dlen := by simp
  ver : j.op ≠ .probe → t.ver = s.ver := by simp
  statusOp : t.status.op = s.status.op := by simp
  /-- it has finished the job, or the job goes on with no result written -/
  ends : t.job = none ∨ (t.status = s.status ∧ t.claim = s.claim ∧ t.dlen = s.dlen ∧ t.ver = s.ver ∧
    ∃ x k, t.job = some { j with acc := x, i := k } ∧ (k = j.i ∨ k = j.i + 1)) := by simp

/-- A turn in which the engine waits moves nothing. -/
theorem EngineMoves.wait {j : Job} {s : State} (hj : s.job = some j) : EngineMoves j s s where
  ends := .inr ⟨rfl, rfl, rfl, rfl, j.acc, j.i, hj, .inl rfl⟩

theorem engineMoves_of_checksumStep {j : Job} {s t : State} (h : checksumStep j s = .next t) : EngineMoves j s t := by
  obtain ⟨b, -, ⟨-, -, rfl⟩ | ⟨-, -, rfl⟩ | ⟨-, rfl⟩⟩ := checksumStep_eq_next h
  · exact {}
  · exact {}
  · exact { ends := .inr ⟨rfl, rfl, rfl, rfl, j.acc, j.i + 1, rfl, .inr rfl⟩ }

theorem engineMoves_of_encodeStep {j : Job} {s t : State} (hj : s.job = some j) (hop : j.op = .encode)
    (h : encodeStep j s = .next t) : EngineMoves j s t := by
  rcases encodeStep_eq_next h with ⟨-, rfl⟩ | ⟨hrdy, b, u, -, hu, ht⟩
  · exact .wait hj
  · have hu : u = { s with crc := u.crc, txCnt := s.txCnt + 1, txOut := s.txOut ++ [b] } := by
      rw [hu]; split <;> rfl
    rw [hu] at ht
    rcases ht with ⟨-, rfl⟩ | ⟨-, rfl⟩
    · exact { tx := .inr ⟨hop, hrdy, b, rfl, rfl⟩ }
    · exact {
        tx := .inr ⟨hop, hrdy, b, rfl, rfl⟩
        ends := .inr ⟨rfl, rfl, rfl, rfl, j.acc, j.i + 1, rfl, .inr rfl⟩ }

theorem engineMoves_of_rxStep {j : Job} {s t : State} (hj : s.job = some j) (hrx : j.op.isRx = true)
    (h : rxStep j s = .next t) : EngineMoves j s t := by
  rcases rxStep_eq_next h with ⟨-, rfl⟩ | ⟨-, rfl⟩ | ⟨b, j', u, hb, hrule, ht⟩
  · exact .wait hj
  · obtain ⟨k, hk⟩ := rxClose_eq j s
    rw [hk]
    exact {}
  · obtain ⟨q, hq⟩ := State.rxHead_eq_byte.1 hb
    obtain ⟨⟨x, rfl⟩, hu, -⟩ := rxByteRule_frame hrule
    have hbuf : u.buf = s.buf ∨ ∃ a b, j.storeAt = some a ∧ u.buf = s.buf.write a b :=
      (rxByteRule_writes hrule).imp_right fun ⟨a, h⟩ => ⟨a, b, h⟩
    have htake : s.rxq = b :: s.rxTake.rxq := by simp [hq]
    rw [hu] at ht
    rcases ht with ⟨-, hc⟩ | ⟨-, rfl⟩
    · obtain ⟨hclaim, hdlen, hver⟩ := rxComplete_results hc
      obtain ⟨v, d, c, m, k, rfl⟩ := rxComplete_eq_next hc
      exact { rx := .inr ⟨hrx, b, htake, rfl⟩, buf := hbuf, claim := hclaim, dlen := hdlen, ver := hver }
    · exact {
        rx := .inr ⟨hrx, b, htake, rfl⟩
        buf := hbuf
        ends := .inr ⟨rfl, rfl, rfl, rfl, x, j.i + 1, rfl, .inr rfl⟩ }

theorem engineMoves_of_next {s t : State} {j : Job} (hj : s.job = some j) (h : engineStep s = .next t) :
    EngineMoves j s t := by
  rcases engineStep_eq_next h with ⟨hnone, -⟩ | ⟨j', hj', hstep⟩
  · rw [hj] at hnone; cases hnone
  · rw [hj] at hj'
    cases hj'
    rcases hstep with ⟨-, h⟩ | ⟨hop, h⟩ | ⟨hrx, h⟩
    · exact engineMoves_of_checksumStep h
    · exact engineMoves_of_encodeStep hj hop h
    · exact engineMoves_of_rxStep hj hrx h

theorem engineRule_of_busy {s t : State} {j : Job} (hj : s.job = some j) (h : engineStep s = .next t) :
    EngineRule j s t := by
  rcases engineRule_of_next h with ⟨hnone, -⟩ | ⟨j', hj', hrule⟩
  · rw [hj] at hnone; cases hnone
  · rw [hj] at hj'
    cases hj'
    exact hrule

/-- Settles O49: the frame by `EngineRule`, the bytes and the results by `EngineMoves`. -/
theorem engineStepMovesOneByte : Obligations.EngineStepMovesOneByte := by
  intro s t j hj h
  have hrule := engineRule_of_busy hj h
  have hmoves := engineMoves_of_next hj h
  have hframe {α : Type} (f : State → α) := congrArg f hrule.frame
  refine ⟨hframe State.addr, hframe State.len, hframe State.rxEos, hframe State.txReady, hframe State.cfg,
    hframe State.agenda, hframe State.resp, hmoves.rx.imp_left And.left, ?rxCnt, hmoves.tx, ?buf, hmoves.claim,
    hmoves.dlen, hmoves.ver, ?crc, hmoves.statusOp, ?goesOn, ?job⟩
  case rxCnt =>
    intro hq
    rcases hmoves.rx with ⟨-, hcnt⟩ | ⟨-, b, htake, -⟩
    · exact hcnt
    · simp [hq] at htake
  case buf =>
    intro x
    rcases hmoves.buf with hbuf | ⟨a, b, hat, hbuf⟩
    · exact .inr (by rw [hbuf])
    · obtain ⟨hop, ha⟩ := Job.storeAt_eq_some hat
      by_cases hx : x = a
      · exact .inl ⟨hop, hx.trans ha⟩
      · exact .inr (by rw [hbuf, Memory.read_write_other _ b hx])
  case crc =>
    intro hop
    refine hrule.crc.resolve_right fun hcrc => ?_
    simp only [List.mem_cons, List.not_mem_nil, or_false] at hop
    rcases hop with hop | hop | hop <;> simp [hop] at hcrc
  case goesOn =>
    intro hjob
    obtain ⟨hst, hclaim, hdlen, hver, -⟩ := hmoves.ends.resolve_left hjob
    exact ⟨hst, hclaim, hdlen, hver⟩
  case job =>
    intro j' hj'
    rcases hmoves.ends with hnone | ⟨-, -, -, -, x, k, hjob, hk⟩
    · rw [hj'] at hnone; cases hnone
    · rw [hj'] at hjob
      cases hjob
      exact ⟨rfl, rfl, rfl, rfl, hk⟩

end Sys2Proof.Machine
end

section
/-! The checksum arithmetic (R120 to R124, R130): a reduction is linear, so the byte step is, and eight reductions shift
the high bits down and replace the low byte by its table entry. -/

namespace Sys2Proof.Machine

/-! Linearity (R120, R121). -/

/-- The polynomial enters a sum's reduction exactly when it enters that of one term and not of the other. -/
theorem reduce1_xor (x y : Word) : reduce1 (x ^^^ y) = reduce1 x ^^^ reduce1 y := by
  unfold reduce1
  rw [BitVec.getLsbD_xor, BitVec.ushiftRight_xor_distrib]
  cases x.getLsbD 0 <;> cases y.getLsbD 0 <;>
    simp [BitVec.xor_assoc, BitVec.xor_comm Config.crcPoly]

theorem reduce8_xor (x y : Word) : reduce8 (x ^^^ y) = reduce8 x ^^^ reduce8 y := by
  simp only [reduce8, reduce1_xor]

theorem crcStep_xor (r₁ r₂ : Word) (b₁ b₂ : Byte) :
    crcStep (r₁ ^^^ r₂) (b₁ ^^^ b₂) = crcStep r₁ b₁ ^^^ crcStep r₂ b₂ := by
  rw [crcStep, crcStep, crcStep, ← reduce8_xor, BitVec.setWidth_xor]
  ac_rfl

/-- A term added to the register adds its own fold over as many zero bytes. -/
theorem crcFold_xor (r₁ r₂ : Word) (bs : List Byte) :
    crcFold (r₁ ^^^ r₂) bs = crcFold r₁ bs ^^^ crcFold r₂ (List.replicate bs.length 0) := by
  induction bs generalizing r₁ r₂ with
  | nil => rfl
  | cons b bs ih =>
    calc crcFold (crcStep (r₁ ^^^ r₂) b) bs
      _ = crcFold (crcStep r₁ b ^^^ crcStep r₂ 0#8) bs := by rw [← crcStep_xor, BitVec.xor_zero]
      _ = crcFold (crcStep r₁ b) bs ^^^ crcFold (crcStep r₂ 0#8) (List.replicate bs.length 0) := ih ..

/-! Eight reductions: of a word whose low byte is 0 they only shift (R120). -/

theorem reduce1_ushiftRight {r : Word} {k : Nat} (h : r.getLsbD k = false) : reduce1 (r >>> k) = r >>> (k + 1) := by
  simp [reduce1, h, BitVec.shiftRight_add]

theorem reduce8_of_setWidth_eq_zero {r : Word} (h : r.setWidth 8 = 0#8) : reduce8 r = r >>> 8 := by
  have hshift (k : Nat) (hk : k < 8) : reduce1 (r >>> k) = r >>> (k + 1) := by
    have hbit := congrArg (BitVec.getLsbD · k) h
    exact reduce1_ushiftRight (by simpa [hk] using hbit)
  have hfirst : reduce1 r = r >>> 1 := hshift 0 (by decide)
  simp [reduce8, hfirst, hshift]

/-- A byte XORed into a word leaves its high bits. -/
theorem xor_byte_ushiftRight (r : Word) (b : Byte) : (r ^^^ b.setWidth 32) >>> 8 = r >>> 8 := by
  ext i hi
  simp

/-- Eight reductions shift the high bits down, and add the low byte's own reduction. -/
theorem reduce8_eq (r : Word) : reduce8 r = (r >>> 8) ^^^ reduce8 ((r.setWidth 8).setWidth 32) := by
  calc reduce8 r
    _ = reduce8 (r ^^^ (r.setWidth 8).setWidth 32 ^^^ (r.setWidth 8).setWidth 32) := by
      rw [BitVec.xor_assoc, BitVec.xor_self, BitVec.xor_zero]
    _ = (r >>> 8) ^^^ reduce8 ((r.setWidth 8).setWidth 32) := by
      rw [reduce8_xor, reduce8_of_setWidth_eq_zero (by simp), xor_byte_ushiftRight]

/-! The table (R123). -/

theorem crcTable_eq_map_range : crcTable = (List.range 256).map fun i => reduce8 (BitVec.ofNat 32 i) := by
  decide +kernel

theorem tableEntry_eq (i : Byte) : tableEntry i = reduce8 (i.setWidth 32) := by
  rw [tableEntry, crcTable_eq_map_range, List.getD_eq_getElem?_getD, List.getElem?_map, List.getElem?_range i.isLt]
  simp

/-- Settles O14, by evaluation. -/
theorem checksumReferenceValues : Obligations.ChecksumReferenceValues := by
  unfold Obligations.ChecksumReferenceValues
  decide +kernel

/-- Settles O15: each printed entry is the reduction of its place. -/
theorem tableIsTheReductionOfItsIndex : Obligations.TableIsTheReductionOfItsIndex :=
  ⟨by rw [crcTable_eq_map_range, List.length_map, List.length_range], tableEntry_eq⟩

/-- Settles O16: XORing the byte into the register leaves its high bits, and its low byte is the table's index. -/
theorem tableStepEqualsBitwiseStep : Obligations.TableStepEqualsBitwiseStep := by
  intro r b
  rw [crcStep, reduce8_eq, xor_byte_ushiftRight, tableEntry_eq]
  rfl

/-! The residue (R130). -/

theorem byteOf_eq_setWidth (k : Nat) (w : Word) : byteOf k w = (w >>> (8 * k)).setWidth 8 := rfl

/-- A register stepped by its own low byte shifts down. -/
theorem crcStep_byteOf_zero (w : Word) : crcStep w (byteOf 0 w) = w >>> 8 := by
  have hlow : (w ^^^ (byteOf 0 w).setWidth 32).setWidth 8 = 0#8 := by simp [byteOf_eq_setWidth]
  rw [crcStep, reduce8_of_setWidth_eq_zero hlow, xor_byte_ushiftRight]

/-- A register stepped by its own four bytes is 0. -/
theorem crcFold_le32Bytes_self (w : Word) : crcFold w (le32Bytes w) = 0 := by
  have hbyte (k : Nat) : byteOf k w = byteOf 0 (w >>> (8 * k)) := by simp [byteOf_eq_setWidth]
  have hstep (k : Nat) : crcStep (w >>> (8 * k)) (byteOf k w) = w >>> (8 * (k + 1)) := by
    rw [hbyte, crcStep_byteOf_zero, ← BitVec.shiftRight_add, Nat.mul_succ]
  calc crcFold w (le32Bytes w)
    _ = crcStep (crcStep (crcStep (crcStep (w >>> (8 * 0)) (byteOf 0 w)) (byteOf 1 w)) (byteOf 2 w)) (byteOf 3 w) := rfl
    _ = w >>> 32 := by rw [hstep, hstep, hstep, hstep]
    _ = 0 := BitVec.ushiftRight_eq_zero (by decide)

/-- Any register followed by the bytes of its complement ends at the residue. -/
theorem crcFold_le32Bytes_not (w : Word) : crcFold w (le32Bytes (~~~ w)) = 0xDEBB20E3 := by
  have hnot : ~~~ w ^^^ 0xFFFFFFFF = w := BitVec.xor_allOnes.trans BitVec.not_not
  calc crcFold w (le32Bytes (~~~ w))
    _ = crcFold (~~~ w ^^^ 0xFFFFFFFF) (le32Bytes (~~~ w)) := by rw [hnot]
    _ = 0 ^^^ crcFold 0xFFFFFFFF [0, 0, 0, 0] := by rw [crcFold_xor, crcFold_le32Bytes_self]; rfl
    _ = 0xDEBB20E3 := by decide +kernel

/-- Settles O17: the residue is that of the register the sequence leaves, whatever it is. -/
theorem checksumLawsAndResidue : Obligations.ChecksumLawsAndResidue := by
  refine ⟨rfl, crcStep_xor, fun i j => ?table, rfl, fun bs => ?residue, rfl⟩
  case table =>
    rw [tableEntry_eq, tableEntry_eq, tableEntry_eq, BitVec.setWidth_xor, reduce8_xor]
  case residue =>
    rw [crcFold, List.foldl_append]
    exact crcFold_le32Bytes_not _

end Sys2Proof.Machine
end

section
/-! CRC_INIT and CRC_BYTE (R125, R126, R233), and a sequence of CRC_BYTE writes from the host. -/

namespace Sys2Proof.Machine

/-- A run goes on from the state its first step leaves (R104). -/
theorem run_succ_of_step {s t : State} (h : step s = .next t) (k : Nat) :
    Host.Core.run core (k + 1) s = Host.Core.run core k t := by
  have hstep : core.step s = .next t := h
  simp only [Host.Core.run, hstep]

/-- The step of the host's write of a command's word to CMD is the command's (R100). -/
theorem step_command {s : State} {i : Instr} {rest : List Event} (ha : s.agenda = cmdWrite (encode i) :: rest) :
    step s = exec i { s with agenda := rest } := by
  rw [step_cmdWrite ha, presentWord_of_ok (decode_encode i)]

theorem exec_crcInit_of_idle {s : State} (hj : s.job = none) :
    exec .crcInit s = .next { s with resp := some .okay, crc := 0xFFFFFFFF, status := doneStatus 0x01 .ok } := by
  rw [exec, execCrcInit, State.whenIdle_of_idle hj]
  cases s; cases hj; rfl

theorem exec_crcByte_of_idle {s : State} (hj : s.job = none) (b : Byte) :
    exec (.crcByte b) s = .next { s with
      resp := some .okay
      crc := crcStep s.crc b
      status := doneStatus 0x02 .ok } := by
  rw [exec, execCrcByte, State.whenIdle_of_idle hj]
  cases s; cases hj; rfl

/-- The step of a CRC_BYTE write while idle (R126). -/
theorem step_crcByte_of_idle {s : State} {b : Byte} {rest : List Event} (hj : s.job = none)
    (ha : s.agenda = cmdWrite (encode (.crcByte b)) :: rest) :
    step s = .next { s with
      agenda := rest
      resp := some .okay
      crc := crcStep s.crc b
      status := doneStatus 0x02 .ok } :=
  (step_command ha).trans (exec_crcByte_of_idle (s := { s with agenda := rest }) hj b)

/-- Settles O18: accepted and finished in one step while idle, refused while busy. -/
theorem crcInitRestartsCrc : Obligations.CrcInitRestartsCrc :=
  ⟨rfl, fun _ hj => exec_crcInit_of_idle hj, fun _ _ hj => exec_of_busy hj nofun⟩

/-- The operand of CRC_BYTE stands in bits [15:8] of its word (R82, R84). -/
theorem encode_crcByte (b : Byte) : encode (.crcByte b) = 0x00000002 ||| (b.setWidth 32 <<< 8) := by
  have himm : 0#16 ++ b ++ 0#8 = b.setWidth 32 <<< 8 := by
    refine BitVec.eq_of_toNat_eq ((toNat_append_eq_add _ _).trans ?_)
    rw [toNat_append_eq_add, BitVec.toNat_shiftLeft, BitVec.toNat_setWidth, Nat.shiftLeft_eq]
    bv_omega
  calc 0#16 ++ b ++ 0x02#8
    _ = (0#16 ++ 0#8 ++ 0x02#8) ||| (0#16 ++ b ++ 0#8) := by
      rw [BitVec.or_append, BitVec.or_append, BitVec.zero_or, BitVec.zero_or, BitVec.or_zero]
    _ = 0x00000002 ||| (b.setWidth 32 <<< 8) := by rw [himm]; rfl

/-- A sequence of CRC_BYTE writes folds its bytes into CRC, in the order written (R126). -/
theorem run_crcBytes {s : State} {bs : List Byte} {rest : List Event} (hj : s.job = none)
    (ha : s.agenda = (bs.map fun b => cmdWrite (encode (.crcByte b))) ++ rest) :
    ∃ t, Host.Core.run core bs.length s = .next t ∧ t.crc = crcFold s.crc bs ∧ t.job = none ∧ t.agenda = rest := by
  induction bs generalizing s with
  | nil => exact ⟨s, rfl, rfl, hj, ha⟩
  | cons b bs ih =>
    rw [List.length_cons, run_succ_of_step (step_crcByte_of_idle hj ha)]
    exact ih hj rfl

/-- A reset, or a CRC_INIT while idle, leaves an idle machine with CRC at its initial value (R125, R230). -/
theorem step_restarts_crc {s : State} {e : Event} {rest : List Event}
    (he : e = .reset ∨ (s.job = none ∧ e = cmdWrite (encode .crcInit))) (ha : s.agenda = e :: rest) :
    ∃ u, step s = .next u ∧ u.job = none ∧ u.crc = Config.crcInit ∧ u.agenda = rest := by
  rcases he with rfl | ⟨hj, rfl⟩
  · exact ⟨_, step_of_cons ha, rfl, rfl, rfl⟩
  · exact ⟨_, (step_command ha).trans (exec_crcInit_of_idle hj), hj, rfl, rfl⟩

/-- Settles O19: the first step restarts CRC, the others fold the bytes. -/
theorem crcByteStepsCrc : Obligations.CrcByteStepsCrc := by
  refine ⟨encode_crcByte, fun s b hj => exec_crcByte_of_idle hj b, fun s b j hj => exec_of_busy hj nofun, ?_⟩
  intro s e bs rest he ha
  obtain ⟨u, hstep, hj, hcrc, hagenda⟩ := step_restarts_crc he ha
  obtain ⟨t, hrun, hfold, hidle, hrest⟩ := run_crcBytes hj hagenda
  refine ⟨⟨u, hstep, ?_, rfl⟩, t, (run_succ_of_step hstep _).trans hrun, ?_, hidle, hrest⟩
  · rw [State.crcOut, hcrc]
    rfl
  · show ~~~ t.crc = _
    rw [hfold, hcrc, checksum]

end Sys2Proof.Machine
end

section
/-! CRC_BUF, CRC_CALC and CRC_CHECK (R127 to R129): their start rules, the engine step they share, and the run of the
engine over the bytes of BUF. -/

namespace Sys2Proof.Machine

/-! The ends they share. -/

/-- How a checksum command of opcode `op` finishes: OK, and a CRC_CHECK compares CRCOUT with CLAIM (R127 to R129). -/
def State.checksumEnd (op : JobOp) (s : State) : State :=
  { s with
    job := none
    status := { s.status with
      done := true
      result := .ok
      matched := if op = .crcCheck then decide (~~~ s.crc = s.claim) else s.status.matched } }

/-- What a checksum command's start rule does once CRC is as it shall start: with LEN = 0 it is finished, else its job
starts (R106, R127). -/
def State.checksumStart (op : JobOp) (s : State) : State :=
  if s.len = 0 then s.checksumEnd op else s.start { op := op, a := s.addr, n := s.len }

/-- What an accepted checksum command of opcode `op` does, with CRC to start at `c0`: RANGE, or its start (R105, R127). -/
def State.checksumCommand (op : JobOp) (c0 : Word) (s : State) : State :=
  if s.cfg.bufBytes < s.addr.toNat + s.len.toNat then
    { s with resp := some .okay, status := doneStatus op.code .range }
  else State.checksumStart op { s with resp := some .okay, crc := c0, status := busyStatus op.code }

theorem State.finish_matchClaim (s : State) : s.matchClaim.finish .ok = s.checksumEnd .crcCheck := by
  simp [State.matchClaim, State.checksumEnd, State.setMatch, State.finish, State.crcOut, Bool.beq_eq_decide_eq]

theorem State.finish_eq_checksumEnd {op : JobOp} (h : op ≠ .crcCheck) (s : State) :
    s.finish .ok = s.checksumEnd op := by
  simp [State.checksumEnd, State.finish, h]

theorem State.checksumStart_of_finish {op : JobOp} (h : op ≠ .crcCheck) (s : State) :
    (if s.len = 0 then .next (s.finish .ok) else .next (s.start { op := op, a := s.addr, n := s.len }) : Answer) =
      .next (s.checksumStart op) := by
  rw [State.checksumStart, State.finish_eq_checksumEnd h]
  split <;> rfl

theorem State.checksumStart_of_matchClaim (s : State) :
    (if s.len = 0 then .next (s.matchClaim.finish .ok)
      else .next (s.start { op := .crcCheck, a := s.addr, n := s.len }) : Answer) =
      .next (s.checksumStart .crcCheck) := by
  rw [State.checksumStart, State.finish_matchClaim]
  split <;> rfl

/-! The start rules. -/

/-- The gate and the range check, before what a rule does to CRC and its start (R100, R102, R105). -/
theorem State.whenIdle_checksumStart {s : State} (hj : s.job = none) (op : JobOp) {restart : State → State} {c0 : Word}
    (hrestart : restart ((s.respond .okay).accept op.code) =
      { s with resp := some .okay, crc := c0, status := busyStatus op.code }) :
    (s.whenIdle op.code fun s => s.checkRange s.addr.toNat s.len.toNat fun s => .next ((restart s).checksumStart op)) =
      .next (s.checksumCommand op c0) := by
  rw [State.whenIdle_of_idle hj, State.checksumCommand]
  split
  · next h =>
    refine (State.checkRange_of_gt (s := (s.respond .okay).accept op.code) h _).trans ?_
    cases s; cases hj; rfl
  · next h =>
    refine (State.checkRange_of_le (s := (s.respond .okay).accept op.code) (Nat.not_lt.1 h) _).trans ?_
    rw [hrestart]

theorem exec_crcBuf_of_idle {s : State} (hj : s.job = none) :
    exec .crcBuf s = .next (s.checksumCommand .crcBuf s.crc) := by
  simp only [exec, execCrcBuf, State.checksumStart_of_finish (op := .crcBuf) nofun]
  exact State.whenIdle_checksumStart hj .crcBuf (restart := id) rfl

theorem exec_crcCalc_of_idle {s : State} (hj : s.job = none) :
    exec .crcCalc s = .next (s.checksumCommand .crcCalc Config.crcInit) := by
  simp only [exec, execCrcCalc, State.checksumStart_of_finish (op := .crcCalc) nofun]
  exact State.whenIdle_checksumStart hj .crcCalc rfl

theorem exec_crcCheck_of_idle {s : State} (hj : s.job = none) :
    exec .crcCheck s = .next (s.checksumCommand .crcCheck Config.crcInit) := by
  simp only [exec, execCrcCheck, State.checksumStart_of_matchClaim]
  exact State.whenIdle_checksumStart hj .crcCheck rfl

/-! The engine. -/

/-- A checksum step over a defined byte (R127, R129). -/
theorem checksumStep_of_bufRead {j : Job} {s : State} {b : Byte} (hb : s.bufRead (j.a.toNat + j.i.toNat) = .ok b) :
    checksumStep j s = .next (
      if j.i + 1 = j.n then (s.crcByte b).checksumEnd j.op else (s.crcByte b).start { j with i := j.i + 1 }) := by
  rw [checksumStep, hb]
  by_cases hop : j.op = .crcCheck
  · simp only [hop, State.finish_matchClaim]
    split <;> rfl
  · simp only [hop, State.finish_eq_checksumEnd hop]
    split <;> rfl

theorem State.readSlice_cons {s : State} {a n : Nat} {b : Byte} {bs : List Byte}
    (h : s.readSlice a (n + 1) = .ok (b :: bs)) : s.bufRead a = .ok b ∧ s.readSlice (a + 1) n = .ok bs := by
  rw [State.readSlice] at h
  split at h
  · cases h
  · next hb =>
    split at h
    · cases h
    · next hbs =>
      cases h
      exact ⟨hb, hbs⟩

/-- With an empty agenda, a checksum job with the bytes `bs` still to read folds them into CRC, one in a step, and
finishes (R104, R127). -/
theorem run_checksumJob {s : State} {j : Job} {bs : List Byte} (hj : s.job = some j)
    (hop : j.op ∈ [JobOp.crcBuf, .crcCalc, .crcCheck]) (ha : s.agenda = []) (hne : bs ≠ [])
    (hlen : j.i.toNat + bs.length = j.n.toNat)
    (hread : s.readSlice (j.a.toNat + j.i.toNat) bs.length = .ok bs) :
    Host.Core.run core bs.length s = .next (State.checksumEnd j.op { s with crc := crcFold s.crc bs }) := by
  induction bs generalizing s j with
  | nil => exact absurd rfl hne
  | cons b bs ih =>
    rw [List.length_cons] at hlen
    have hsucc : (j.i + 1).toNat = j.i.toNat + 1 := toNat_succ_of_lt (n := j.n) (by omega)
    obtain ⟨hb, hbs⟩ := State.readSlice_cons hread
    have hstep : step s = _ :=
      (step_of_nil ha).trans ((engineStep_of_checksum hj hop).trans (checksumStep_of_bufRead hb))
    rw [List.length_cons, run_succ_of_step hstep]
    by_cases hlast : bs = []
    · subst hlast
      rw [if_pos (BitVec.eq_of_toNat_eq (hsucc.trans hlen))]
      rfl
    · have hmore : j.i + 1 ≠ j.n := fun h => by
        have := List.length_pos_iff.2 hlast
        rw [← h] at hlen
        omega
      rw [if_neg hmore]
      refine ih (j := { j with i := j.i + 1 }) rfl hop ha hlast ?_ ?_
      · rw [hsucc, Nat.add_right_comm]
        exact hlen
      · rw [hsucc]
        exact State.readSlice_congr hbs rfl rfl

/-- A checksum command accepted with CRC at `c0` finishes in LEN engine steps, with BUF[ADDR : ADDR + LEN] folded into
CRC and everything else as it was (R127 to R129). -/
theorem run_checksumCommand {s : State} {op : JobOp} {c0 : Word} {bs : List Byte}
    (hop : op ∈ [JobOp.crcBuf, .crcCalc, .crcCheck]) (hj : s.job = none) (ha : s.agenda = [])
    (hle : s.addr.toNat + s.len.toNat ≤ s.cfg.bufBytes) (hread : s.readSlice s.addr.toNat s.len.toNat = .ok bs) :
    Host.Core.run core s.len.toNat (s.checksumCommand op c0) = .next { s with
      resp := some .okay
      crc := crcFold c0 bs
      status := { doneStatus op.code .ok with
        matched := if op = .crcCheck then decide (~~~ crcFold c0 bs = s.claim) else false } } := by
  rw [State.checksumCommand, if_neg (Nat.not_lt.2 hle), State.checksumStart]
  have hlen : bs.length = s.len.toNat := (State.readSlice_eq_ok.1 hread).1
  by_cases hzero : s.len = 0
  · obtain rfl : bs = [] := by simpa [hzero] using hlen
    rw [if_pos hzero, ← hlen]
    cases s; cases hj; rfl
  · have hne : bs ≠ [] := by
      rintro rfl
      exact hzero (BitVec.eq_of_toNat_eq hlen.symm)
    rw [← hlen] at hread
    rw [if_neg hzero, ← hlen]
    refine (run_checksumJob (j := { op := op, a := s.addr, n := s.len }) ?job hop ?agenda hne ?count ?read).trans ?_
    case job => rfl
    case agenda => exact ha
    case count => exact (Nat.zero_add _).trans hlen
    case read => exact State.readSlice_congr hread rfl rfl
    cases s; cases hj; rfl

/-! The statements of 41_checksum.md. -/

/-- Settles O20: the job's fields that R127 does not give are 0; the run is that of `run_checksumCommand`. -/
theorem crcBufContinuesTheChecksum : Obligations.CrcBufContinuesTheChecksum := by
  refine ⟨rfl, fun s hj => ⟨0, 0, ?start⟩, fun s j hj => exec_of_busy hj nofun, ?engine, ?undef, ?deadline, ?run⟩
  case start =>
    rw [exec_crcBuf_of_idle hj, State.checksumCommand, State.checksumStart]
    cases s; cases hj; rfl
  case engine =>
    intro s j b hj hop hlt hb
    rw [engineStep_of_checksum hj hop, checksumStep_of_bufRead (State.bufRead_eq_ok.2 ⟨hlt, hb⟩)]
    rfl
  case undef =>
    intro s j hj hop hlt hb
    rw [engineStep_of_checksum hj hop, checksumStep, State.bufRead_eq_error.2 (.inl ⟨hlt, hb, rfl⟩)]
  case deadline =>
    intro s j hj hop
    rw [exec_deadline_of_busy hj]
    simp only [List.mem_cons, List.not_mem_nil, or_false] at hop
    rcases hop with hop | hop | hop <;> rw [hop] <;> rfl
  case run =>
    intro s bs hj ha hle hread
    exact ⟨_, exec_crcBuf_of_idle hj, run_checksumCommand (by simp) hj ha hle hread⟩

/-- Settles O21: CRC restarts, so the run of `run_checksumCommand` folds the bytes from the initial value. -/
theorem crcCalcComputesTheChecksum : Obligations.CrcCalcComputesTheChecksum := by
  refine ⟨rfl, fun s hj => ⟨0, 0, ?start⟩, fun s j hj => exec_of_busy hj nofun, ?run⟩
  case start =>
    rw [exec_crcCalc_of_idle hj, State.checksumCommand, State.checksumStart]
    cases s; cases hj; rfl
  case run =>
    intro s bs hj ha hle hread
    exact ⟨_, exec_crcCalc_of_idle hj, _, run_checksumCommand (by simp) hj ha hle hread, rfl, rfl⟩

/-- Settles O22: as O21, and MATCH compares the complement of that fold with CLAIM; the checksum of no byte is 0. -/
theorem crcCheckComparesWithClaim : Obligations.CrcCheckComparesWithClaim := by
  refine ⟨rfl, fun s hj => ⟨0, 0, ?start⟩, fun s j hj => exec_of_busy hj nofun, ?run⟩
  case start =>
    have hempty : decide (~~~ Config.crcInit = s.claim) = decide (s.claim = 0x00000000) := decide_eq_decide.2 eq_comm
    rw [exec_crcCheck_of_idle hj, State.checksumCommand, State.checksumStart, ← hempty]
    cases s; cases hj; rfl
  case run =>
    intro s bs hj ha hle hread
    exact ⟨_, exec_crcCheck_of_idle hj, run_checksumCommand (by simp) hj ha hle hread⟩

end Sys2Proof.Machine
end

section
/-! Values and their bytes (R10, R80), and the layout of a frame (R140). -/

namespace Sys2Proof

/-- The operand of a CI word stands in bits [15:8], above its OP (R80, R82). -/
theorem pack_eq_or (op imm : Byte) : pack ⟨op, imm, 0⟩ = op.setWidth 32 ||| (imm.setWidth 32 <<< 8) := by
  have h := BitVec.setWidth_append_append_eq_shiftLeft_setWidth_or (b := 0#16) (b' := imm) (b'' := op) (w''' := 32)
  rw [BitVec.setWidth_eq, BitVec.setWidth_zero, BitVec.zero_shiftLeft, BitVec.zero_or, BitVec.or_comm] at h
  exact h

namespace Machine

theorem le16_eq_or (b0 b1 : Byte) : le16 b0 b1 = b0.setWidth 16 ||| (b1.setWidth 16 <<< 8) := by
  have h := BitVec.setWidth_append_eq_shiftLeft_setWidth_or (b := b1) (b' := b0) (w'' := 16)
  rw [BitVec.setWidth_eq, BitVec.or_comm] at h
  exact h

/-- Two bytes at their places are the value they make (R10, R163). -/
theorem le16_eq_bytesPlaced (b0 b1 : Byte) : (bytePlaced b0 0 ||| bytePlaced b1 1).setWidth 16 = le16 b0 b1 := by
  rw [le16_eq_or]
  ext i hi
  simp [bytePlaced]

/-- Four bytes at their places are the word they make (R10, R165). -/
theorem le32_eq_bytesPlaced (b0 b1 b2 b3 : Byte) :
    bytePlaced b0 0 ||| bytePlaced b1 1 ||| bytePlaced b2 2 ||| bytePlaced b3 3 = le32 b0 b1 b2 b3 := by
  have hrev (w x y z : Word) : w ||| x ||| y ||| z = z ||| y ||| x ||| w := by ac_rfl
  have h := BitVec.setWidth_append_append_append_eq_shiftLeft_setWidth_or
    (b := b3) (b' := b2) (b'' := b1) (b''' := b0) (w'''' := 32)
  rw [BitVec.setWidth_eq, ← hrev] at h
  rw [show bytePlaced b0 0 = b0.setWidth 32 from BitVec.shiftLeft_zero _]
  exact h.symm

theorem le16_le16Bytes (v : Half) : le16 (v.extractLsb' 0 8) (v.extractLsb' 8 8) = v :=
  BitVec.extractLsb'_append_extractLsb'

theorem le32_le32Bytes (v : Word) : le32 (byteOf 0 v) (byteOf 1 v) (byteOf 2 v) (byteOf 3 v) = v := by
  simp only [le32, byteOf, BitVec.extractLsb'_append_extractLsb'_eq_extractLsb']
  exact BitVec.extractLsb'_eq_self

theorem frame_eq_response (c : Byte) (p : List Byte) : frame c p = response (c :: p) := by
  rw [frame, response, List.length_cons, Nat.add_comm]

/-- Settles O24: the bytes are those of the definition. -/
theorem frameLayout : Obligations.FrameLayout := by
  refine fun c p => ⟨?_, length_frame c p⟩
  rw [frame, List.append_assoc _ [c] p]
  rfl

end Machine
end Sys2Proof
end

section
/-! ENCODE (R143, R146): its start rule, the byte an engine step hands over, and the run of the engine over a whole
frame. -/

namespace Sys2Proof.Machine

/-! The start rule. -/

/-- What an accepted ENCODE does: PAYLOAD_TOO_LARGE, RANGE, or its job starts (R143, R146). -/
def State.encodeCommand (c : Byte) (s : State) : State :=
  if Config.maxPayload < s.len.toNat then { s with resp := some .okay, status := doneStatus 0x10 .payloadTooLarge }
  else if s.cfg.bufBytes < s.addr.toNat + s.len.toNat then
    { s with resp := some .okay, status := doneStatus 0x10 .range }
  else { s with
    resp := some .okay
    txCnt := 0
    crc := Config.crcInit
    status := busyStatus 0x10
    job := some { op := .encode, a := s.addr, n := s.len + 7, c := c } }

theorem exec_encode_of_idle {s : State} (hj : s.job = none) (c : Byte) :
    exec (.encode c) s = .next (s.encodeCommand c) := by
  rw [exec, execEncode, State.whenIdle_of_idle hj, State.encodeCommand]
  rcases Nat.lt_or_ge Config.maxPayload s.len.toNat with hgt | hlen
  · rw [if_pos hgt]
    refine (if_pos hgt).trans ?_
    cases s; cases hj; rfl
  · rw [if_neg (Nat.not_lt.2 hlen)]
    refine (if_neg (Nat.not_lt.2 hlen)).trans ?_
    rcases Nat.lt_or_ge s.cfg.bufBytes (s.addr.toNat + s.len.toNat) with hgt | hle
    · rw [if_pos hgt]
      refine (State.checkRange_of_gt (s := (s.respond .okay).accept 0x10) hgt _).trans ?_
      cases s; cases hj; rfl
    · rw [if_neg (Nat.not_lt.2 hle)]
      exact State.checkRange_of_le (s := (s.respond .okay).accept 0x10) hle _

/-! The engine. -/

/-- The byte `b` of place J.i goes to the link, and into CRC where it is of the content (R143). -/
def State.encodePut (j : Job) (b : Byte) (s : State) : State :=
  { s with
    txOut := s.txOut ++ [b]
    txCnt := s.txCnt + 1
    crc := if 2 ≤ j.i.toNat ∧ j.i.toNat < 3 + (j.n.toNat - 7) then crcStep s.crc b else s.crc }

/-- An ENCODE's engine step where the link accepts and the byte of place J.i is `b` (R143). -/
theorem encodeStep_of_byte {j : Job} {s : State} {b : Byte} (hrdy : s.txReady = true)
    (hb : encodeByte j (j.n.toNat - 7) j.i.toNat s = .ok b) :
    encodeStep j s = .next (
      if j.i + 1 = j.n then (s.encodePut j b).finish .ok else (s.encodePut j b).start { j with i := j.i + 1 }) := by
  have hput : (if 2 ≤ j.i.toNat ∧ j.i.toNat < 3 + (j.n.toNat - 7) then s.crcByte b else s).txPut b =
      s.encodePut j b := by
    unfold State.encodePut
    split <;> rfl
  simp only [encodeStep, hrdy, hb, hput, if_true]
  split <;> rfl

theorem encodeStep_of_error {j : Job} {s : State} {f : Fault} (hrdy : s.txReady = true)
    (hb : encodeByte j (j.n.toNat - 7) j.i.toNat s = .error f) : encodeStep j s = .fault f := by
  simp only [encodeStep, hrdy, hb, if_true]

/-- Over a defined payload, every place of the frame has a byte to send (R143). -/
theorem EncodeAt.encodeByte_eq_ok {c : Byte} {p sent : List Byte} {s : State} {j : Job} (h : EncodeAt c p sent s j) :
    ∃ b, encodeByte j (j.n.toNat - 7) j.i.toNat s = .ok b := by
  cases hb : encodeByte j (j.n.toNat - 7) j.i.toNat s with
  | ok b => exact ⟨b, rfl⟩
  | error f =>
    obtain ⟨hge, hlt, hread⟩ := encodeByte_eq_error hb
    obtain ⟨-, hsource⟩ := State.readSlice_eq_ok.1 h.source
    have htotal := h.total
    rw [hsource _ (by omega)] at hread
    cases hread

/-- With an empty agenda and a link that accepts, an ENCODE with `k + 1` bytes of its frame still to send sends them,
one in a step, and finishes; nothing else changes (R104, R143). -/
theorem run_encodeJob {c : Byte} {p sent : List Byte} {k : Nat} {s : State} {j : Job} (h : EncodeAt c p sent s j)
    (ha : s.agenda = []) (hrdy : s.txReady = true) (hk : j.i.toNat + (k + 1) = j.n.toNat) :
    Host.Core.run core (k + 1) s = .next { s with
      job := none
      txOut := sent ++ frame c p
      txCnt := j.n
      crc := crcFold Config.crcInit (c :: p)
      status := doneStatus 0x10 .ok } := by
  induction k generalizing s j with
  | zero =>
    obtain ⟨b, hb⟩ := h.encodeByte_eq_ok
    have hlast : j.i + 1 = j.n := BitVec.eq_of_toNat_eq ((toNat_succ_of_lt h.progress).trans hk)
    have hstep := encodeStep_of_byte hrdy hb
    rw [if_pos hlast] at hstep
    rcases h.encodeStep hstep with ⟨j', h', -⟩ | ⟨-, hstatus, hout, hcrc⟩
    · cases h'.job
    · have hcnt : ((s.encodePut j b).finish .ok).txCnt = j.n := by
        rw [← hlast, ← h.counted]; rfl
      have hcrc : ((s.encodePut j b).finish .ok).crc = crcFold Config.crcInit (c :: p) := BitVec.not_inj.1 hcrc
      rw [run_succ_of_step ((step_of_nil ha).trans ((engineStep_of_encode h.job h.opIs).trans hstep)), ← hstatus,
        ← hout, ← hcnt, ← hcrc]
      rfl
  | succ k ih =>
    obtain ⟨b, hb⟩ := h.encodeByte_eq_ok
    have hsucc := toNat_succ_of_lt h.progress
    have hmore : j.i + 1 ≠ j.n := fun e => by rw [← e] at hk; omega
    have hstep := encodeStep_of_byte hrdy hb
    rw [if_neg hmore] at hstep
    rw [run_succ_of_step ((step_of_nil ha).trans ((engineStep_of_encode h.job h.opIs).trans hstep))]
    rcases h.encodeStep hstep with ⟨j', h', -⟩ | ⟨hnone, -⟩
    · cases h'.job
      refine ih (j := { j with i := j.i + 1 }) h' ha hrdy ?_
      simp only [hsucc]
      omega
    · cases hnone

/-- An accepted ENCODE of defined bytes is at the start of its frame (R143). -/
theorem encodeAt_of_encodeCommand {s : State} {p : List Byte} (c : Byte) (hlen : s.len.toNat ≤ Config.maxPayload)
    (hle : s.addr.toNat + s.len.toNat ≤ s.cfg.bufBytes) (hread : s.readSlice s.addr.toNat s.len.toNat = .ok p) :
    EncodeAt c p s.txOut (s.encodeCommand c) { op := .encode, a := s.addr, n := s.len + 7, c := c } := by
  have hp : p.length = s.len.toNat := (State.readSlice_eq_ok.1 hread).1
  have htotal : (s.len + 7).toNat = p.length + 7 := by
    rw [hp]
    simp only [Config.maxPayload] at hlen
    bv_omega
  rw [State.encodeCommand, if_neg (Nat.not_lt.2 hlen), if_neg (Nat.not_lt.2 hle)]
  exact {
    job := rfl
    opIs := rfl
    cmd := rfl
    total := htotal
    short := hp ▸ hlen
    progress := htotal ▸ Nat.succ_pos _
    source := by rw [hp]; exact State.readSlice_congr hread rfl rfl
    sentSoFar := by simp
    counted := rfl
    folded := rfl
    status := rfl }

/-- An ENCODE accepted over defined bytes sends exactly its frame, in LEN + 7 engine steps (R143). -/
theorem run_encodeCommand {s : State} {p : List Byte} (c : Byte) (hj : s.job = none) (ha : s.agenda = [])
    (hrdy : s.txReady = true) (hlen : s.len.toNat ≤ Config.maxPayload)
    (hle : s.addr.toNat + s.len.toNat ≤ s.cfg.bufBytes) (hread : s.readSlice s.addr.toNat s.len.toNat = .ok p) :
    Host.Core.run core (s.len.toNat + 7) (s.encodeCommand c) = .next { s with
      resp := some .okay
      txOut := s.txOut ++ frame c p
      txCnt := s.len + 7
      crc := crcFold Config.crcInit (c :: p)
      status := doneStatus 0x10 .ok } := by
  have hstart := encodeAt_of_encodeCommand c hlen hle hread
  have hp : p.length = s.len.toNat := (State.readSlice_eq_ok.1 hread).1
  have hcommand : s.encodeCommand c = _ :=
    (if_neg (Nat.not_lt.2 hlen)).trans (if_neg (Nat.not_lt.2 hle))
  refine (run_encodeJob (k := s.len.toNat + 6) hstart ?agenda ?ready ?count).trans ?_
  case agenda => rw [hcommand]; exact ha
  case ready => rw [hcommand]; exact hrdy
  case count => rw [hstart.total, hp]; exact Nat.zero_add _
  rw [hcommand]
  cases s; cases hj; rfl

/-! The statements. -/

/-- Settles O25: the engine's steps by the byte of their place, the run by that of `run_encodeCommand`. -/
theorem encodeSendsTheFrame : Obligations.EncodeSendsTheFrame := by
  refine ⟨fun c => pack_eq_or 0x10 c, fun s c hj => ⟨0, exec_encode_of_idle hj c⟩,
    fun s c j hj => exec_of_busy hj nofun, ?wait, ?engine, ?undef, ?deadline, ?run⟩
  case wait =>
    intro s t j hj hop hrdy h
    rw [engineStep_of_encode hj hop] at h
    rcases encodeStep_eq_next h with ⟨-, ht⟩ | ⟨hrdy', -⟩
    · exact ht
    · rw [hrdy] at hrdy'; cases hrdy'
  case engine =>
    rintro s j b _ _ hj hop hrdy rfl rfl hplace
    have hb : encodeByte j (j.n.toNat - 7) j.i.toNat s = .ok b := by
      unfold encodeByte
      split_ifs at hplace ⊢
      · rw [hplace]
      · rw [hplace]
      · rw [hplace]
      · exact State.bufRead_eq_ok.2 hplace
      · rw [hplace, State.crcOut]
    rw [engineStep_of_encode hj hop, encodeStep_of_byte hrdy hb]
    rfl
  case undef =>
    intro s j hj hop hrdy hge hlt hin hnone
    have hb : encodeByte j (j.n.toNat - 7) j.i.toNat s = .error (.undefByte (j.a.toNat + (j.i.toNat - 3))) := by
      rw [encodeByte, if_neg (by omega), if_neg (by omega), if_neg (by omega), if_pos hlt]
      exact State.bufRead_eq_error.2 (.inl ⟨hin, hnone, rfl⟩)
    rw [engineStep_of_encode hj hop, encodeStep_of_error hrdy hb]
  case deadline =>
    intro s j hj hop
    rw [exec_deadline_of_busy hj, hop]
    rfl
  case run =>
    intro s c p hj ha hrdy hlen hle hread
    exact ⟨_, exec_encode_of_idle hj c, _, run_encodeCommand c hj ha hrdy hlen hle hread, rfl, rfl⟩

/-- Settles O27: by the exits of the start rule; only the last of them has a job. -/
theorem payloadTooLargeExactlyAbove65534 : Obligations.PayloadTooLargeExactlyAbove65534 := by
  intro s t c hj h
  rw [exec_encode_of_idle hj] at h
  cases h
  change (_ ↔ Config.maxPayload < s.len.toNat) ∧ _
  unfold State.encodeCommand
  split
  · next hgt => simp [hgt, doneStatus]
  · next hle => split <;> simp [hle, doneStatus, busyStatus]

end Sys2Proof.Machine
end

section
/-! DECLEN (R144). -/

namespace Sys2Proof.Machine

/-- A DECLEN of two bytes or more whose range fits reads the first two (R144). -/
theorem exec_declen_of_le {s : State} (hj : s.job = none) (hlen : 2 ≤ s.len.toNat)
    (hle : s.addr.toNat + s.len.toNat ≤ s.cfg.bufBytes) :
    exec .declen s = match s.bufRead s.addr.toNat with
      | .error f => .fault f
      | .ok b0 => match s.bufRead (s.addr.toNat + 1) with
        | .error f => .fault f
        | .ok b1 => .next { s with resp := some .okay, status := doneStatus 0x11 .ok, dlen := le16 b0 b1 } := by
  rw [exec, execDeclen, State.whenIdle_of_idle hj]
  refine (if_neg (Nat.not_lt.2 hlen)).trans ?_
  refine (State.checkRange_of_le (s := (s.respond .okay).accept 0x11) hle _).trans ?_
  cases s; cases hj; rfl

/-- DECLEN over two defined bytes gives their value (R144). -/
theorem exec_declen_of_defined {s : State} {b0 b1 : Byte} (hj : s.job = none) (hlen : 2 ≤ s.len.toNat)
    (hle : s.addr.toNat + s.len.toNat ≤ s.cfg.bufBytes) (h0 : s.bufRead s.addr.toNat = .ok b0)
    (h1 : s.bufRead (s.addr.toNat + 1) = .ok b1) :
    exec .declen s = .next { s with resp := some .okay, status := doneStatus 0x11 .ok, dlen := le16 b0 b1 } := by
  rw [exec_declen_of_le hj hlen hle, h0, h1]

/-- Settles O28: by the exits of the start rule, in the order it checks them. -/
theorem declenDecodesTheLength : Obligations.DeclenDecodesTheLength := by
  refine ⟨rfl, ?truncated, ?range, ?defined, ?undef, fun s j hj => exec_of_busy hj nofun⟩
  case truncated =>
    intro s hj hlt
    rw [exec, execDeclen, State.whenIdle_of_idle hj]
    refine (if_pos hlt).trans ?_
    cases s; cases hj; rfl
  case range =>
    intro s hj hlen hgt
    rw [exec, execDeclen, State.whenIdle_of_idle hj]
    refine (if_neg (Nat.not_lt.2 hlen)).trans ?_
    refine (State.checkRange_of_gt (s := (s.respond .okay).accept 0x11) hgt _).trans ?_
    cases s; cases hj; rfl
  case defined =>
    intro s b0 b1 hj hlen hle h0 h1
    rw [← le16_eq_or]
    exact exec_declen_of_defined hj hlen hle (State.bufRead_eq_ok.2 ⟨by omega, h0⟩)
      (State.bufRead_eq_ok.2 ⟨by omega, h1⟩)
  case undef =>
    intro s hj hlen hle hnone
    rw [exec_declen_of_le hj hlen hle]
    cases h0 : s.buf.read s.addr.toNat with
    | none =>
      rw [State.bufRead_eq_error.2 (.inl ⟨by omega, h0, rfl⟩)]
      exact ⟨_, rfl, h0⟩
    | some b0 =>
      have h1 : s.buf.read (s.addr.toNat + 1) = none := by simpa [h0] using hnone
      rw [State.bufRead_eq_ok.2 ⟨by omega, h0⟩, State.bufRead_eq_error.2 (.inl ⟨by omega, h1, rfl⟩)]
      exact ⟨_, rfl, h1⟩

end Sys2Proof.Machine
end

section
/-! RXHDR and RXBODY over bytes that wait in RXQ (R160, R163 to R166). -/

namespace Sys2Proof.Machine

/-! Runs. -/

/-- A run of `m + k` steps goes on from where the first `m` end. -/
theorem run_add {s t : State} {m : Nat} (h : Host.Core.run core m s = .next t) (k : Nat) :
    Host.Core.run core (m + k) s = Host.Core.run core k t := by
  induction m generalizing s with
  | zero =>
    cases h
    rw [Nat.zero_add]
  | succ m ih =>
    rw [Nat.add_right_comm]
    simp only [Host.Core.run] at h ⊢
    split at h
    · exact ih h
    · cases h
    · cases h

/-! The RX engine. -/

/-- An RX step that takes the byte `b` and whose byte rule answers (R160). -/
theorem rxStep_of_byte {j j' : Job} {s u : State} {b : Byte} {q : List Byte} (hq : s.rxq = b :: q)
    (hrule : rxByteRule j b s.rxTake = .ok (j', u)) :
    rxStep j s =
      if j'.i + 1 = j'.n then rxComplete { j' with i := j'.i + 1 } u
      else .next (u.start { j' with i := j'.i + 1 }) := by
  simp only [rxStep, State.rxHead_eq_byte.2 ⟨q, hq⟩, hrule]

/-! RXHDR. -/

theorem exec_rxHdr_of_idle {s : State} (hj : s.job = none) : exec .rxHdr s = .next { s with
    resp := some .okay
    rxCnt := 0
    status := busyStatus 0x21
    job := some { op := .rxHdr, n := 2 } } := by
  rw [exec, execRxHdr, State.whenIdle_of_idle hj]
  rfl

/-- RXHDR with two bytes waiting: the command and the engine's two turns leave their value in DLEN (R163). -/
theorem run_rxHdr {s : State} {b0 b1 : Byte} {q : List Byte} {rest : List Event} (hj : s.job = none)
    (hq : s.rxq = b0 :: b1 :: q) (ha : s.agenda = cmdWrite (encode .rxHdr) :: .engine :: .engine :: rest) :
    Host.Core.run core 3 s = .next { s with
      agenda := rest
      resp := some .okay
      rxCnt := 2
      rxq := q
      dlen := le16 b0 b1
      status := doneStatus 0x21 .ok } := by
  rw [← le16_eq_bytesPlaced, ← BitVec.zero_or (x := bytePlaced b0 0),
    run_succ_of_step ((step_command ha).trans (exec_rxHdr_of_idle hj))]
  cases s; cases hj; cases hq; rfl

/-! RXBODY. -/

theorem exec_rxBody_of_le {s : State} (hj : s.job = none) (hle : s.addr.toNat + s.dlen.toNat ≤ s.cfg.bufBytes) :
    exec .rxBody s = .next { s with
      resp := some .okay
      rxCnt := 0
      crc := Config.crcInit
      status := busyStatus 0x22
      job := some { op := .rxBody, a := s.addr, n := s.dlen.setWidth 32 + 4 } } := by
  rw [exec, execRxBody, State.whenIdle_of_idle hj]
  exact State.checkRange_of_le (s := (s.respond .okay).accept 0x22) hle _

/-- RXBODY's engine step on a text byte: to BUF and into CRC (R165). -/
theorem engineStep_of_rxText {s : State} {j : Job} {b : Byte} {q : List Byte} (hj : s.job = some j)
    (hop : j.op = .rxBody) (hq : s.rxq = b :: q) (hlt : j.i.toNat < j.textLen)
    (hin : j.a.toNat + j.i.toNat < s.cfg.bufBytes) :
    engineStep s = .next { s with
      rxq := q
      rxCnt := s.rxCnt + 1
      buf := s.buf.write (j.a.toNat + j.i.toNat) b
      crc := crcStep s.crc b
      job := some { j with i := j.i + 1 } } := by
  have hmore : j.i + 1 ≠ j.n := by
    simp only [Job.textLen] at hlt
    bv_omega
  have hrule : rxByteRule j b s.rxTake =
      .ok (j, ({ s.rxTake with buf := s.buf.write (j.a.toNat + j.i.toNat) b } : State).crcByte b) := by
    simp only [rxByteRule, hop, rxBodyByte, if_pos hlt, State.bufWrite_eq_ok (s := s.rxTake) (b := b).2 ⟨hin, rfl⟩]
    rfl
  rw [engineStep_of_isRx hj (by simp [hop, JobOp.isRx]), rxStep_of_byte hq hrule, if_neg hmore]
  cases s; cases hq; rfl

/-- RXBODY's engine step on the checksum's byte `k`: into the assembly register, and with the last one to CLAIM, which
MATCH compares with CRCOUT (R165, R166). -/
theorem engineStep_of_rxClaim {s : State} {j : Job} {b : Byte} {q : List Byte} {k : Nat} (hj : s.job = some j)
    (hop : j.op = .rxBody) (hq : s.rxq = b :: q) (hk : j.i.toNat = j.textLen + k) (hlt : k < 4) (hn : 4 ≤ j.n.toNat) :
    engineStep s = .next (
      if k = 3 then { s with
        rxq := q
        rxCnt := s.rxCnt + 1
        claim := j.acc ||| bytePlaced b k
        job := none
        status := { s.status with
          done := true
          result := .ok
          matched := decide (~~~ s.crc = j.acc ||| bytePlaced b k) } }
      else { s with
        rxq := q
        rxCnt := s.rxCnt + 1
        job := some { j with i := j.i + 1, acc := j.acc ||| bytePlaced b k } }) := by
  have hlast : j.i + 1 = j.n ↔ k = 3 := by
    simp only [Job.textLen] at hk
    bv_omega
  have hrule : rxByteRule j b s.rxTake = .ok ({ j with acc := j.acc ||| bytePlaced b k }, s.rxTake) := by
    simp only [rxByteRule, hop, rxBodyByte]
    rw [if_neg (by omega), hk, Nat.add_sub_cancel_left]
  rw [engineStep_of_isRx hj (by simp [hop, JobOp.isRx]), rxStep_of_byte hq hrule]
  simp only [rxComplete, hop, hlast, rxBodyComplete, Bool.beq_eq_decide_eq]
  cases s; cases hq
  split <;> rfl

theorem ofNat_succ_add (v : Word) (n : Nat) : v + BitVec.ofNat 32 (n + 1) = v + 1 + BitVec.ofNat 32 n := by
  rw [Nat.add_comm, BitVec.ofNat_add, BitVec.add_assoc]
  rfl

/-- With an empty agenda, an RXBODY whose text bytes to come are `x` stores them, one in a step, and folds them into CRC
(R104, R165). -/
theorem run_rxText {s : State} {j : Job} {x q : List Byte} (hj : s.job = some j) (hop : j.op = .rxBody)
    (ha : s.agenda = []) (hq : s.rxq = x ++ q) (hlen : j.i.toNat + x.length = j.textLen)
    (hin : j.a.toNat + j.textLen ≤ s.cfg.bufBytes) :
    Host.Core.run core x.length s = .next { s with
      rxq := q
      rxCnt := s.rxCnt + BitVec.ofNat 32 x.length
      buf := s.buf.place (j.a.toNat + j.i.toNat) x
      crc := crcFold s.crc x
      job := some { j with i := j.i + BitVec.ofNat 32 x.length } } := by
  induction x generalizing s j with
  | nil =>
    simp only [List.length_nil, BitVec.add_zero]
    cases s; cases hj; cases hq; rfl
  | cons b x ih =>
    rw [List.length_cons] at hlen
    have hlt : j.i.toNat < j.textLen := by omega
    have hsucc : (j.i + 1).toNat = j.i.toNat + 1 :=
      toNat_succ_of_lt (n := j.n) (by simp only [Job.textLen] at hlt; omega)
    have hstep := (step_of_nil ha).trans (engineStep_of_rxText hj hop hq hlt (by omega))
    rw [List.length_cons, run_succ_of_step hstep, ofNat_succ_add, ofNat_succ_add]
    refine (ih (j := { j with i := j.i + 1 }) ?job hop ?agenda ?queue ?left ?inside).trans ?_
    case job => rfl
    case agenda => exact ha
    case queue => rfl
    case left =>
      simp only [hsucc]
      exact (Nat.add_right_comm ..).trans hlen
    case inside => exact hin
    simp only [hsucc]
    rfl

/-- The assembly register `acc` after the bytes `bs` at the places from `k` up (R165). -/
def assembled (acc : Word) (k : Nat) : List Byte → Word
  | [] => acc
  | b :: bs => assembled (acc ||| bytePlaced b k) (k + 1) bs

theorem assembled_eq_le32 (b0 b1 b2 b3 : Byte) : assembled 0 0 [b0, b1, b2, b3] = le32 b0 b1 b2 b3 := by
  rw [← le32_eq_bytesPlaced, ← BitVec.zero_or (x := bytePlaced b0 0)]
  rfl

/-- With an empty agenda, the checksum bytes `bs` still to come for an RXBODY whose text is stored end it, one taken in
a step (R104, R165, R166). -/
theorem run_rxClaim {s : State} {j : Job} {bs q : List Byte} {k : Nat} (hj : s.job = some j) (hop : j.op = .rxBody)
    (ha : s.agenda = []) (hq : s.rxq = bs ++ q) (hk : j.i.toNat = j.textLen + k) (hlen : k + bs.length = 4)
    (hne : bs ≠ []) (hn : 4 ≤ j.n.toNat) :
    Host.Core.run core bs.length s = .next { s with
      rxq := q
      rxCnt := s.rxCnt + BitVec.ofNat 32 bs.length
      claim := assembled j.acc k bs
      job := none
      status := { s.status with
        done := true
        result := .ok
        matched := decide (~~~ s.crc = assembled j.acc k bs) } } := by
  induction bs generalizing s j k with
  | nil => exact absurd rfl hne
  | cons b bs ih =>
    rw [List.length_cons] at hlen
    have hstep := (step_of_nil ha).trans (engineStep_of_rxClaim hj hop hq hk (by omega) hn)
    rw [List.length_cons, run_succ_of_step hstep]
    by_cases hlast : bs = []
    · subst hlast
      rw [if_pos (show k = 3 by simpa using hlen)]
      rfl
    · have hmore : k ≠ 3 := fun h => by
        have := List.length_pos_iff.2 hlast
        omega
      have hsucc : (j.i + 1).toNat = j.i.toNat + 1 :=
        toNat_succ_of_lt (n := j.n) (by simp only [Job.textLen] at hk; omega)
      rw [if_neg hmore, ofNat_succ_add]
      refine (ih (j := { j with i := j.i + 1, acc := j.acc ||| bytePlaced b k }) (k := k + 1) ?job hop ?agenda ?queue
        ?place ?left hlast hn).trans ?_
      case job => rfl
      case agenda => exact ha
      case queue => rfl
      case place =>
        simp only [hsucc, hk]
        rfl
      case left => exact (Nat.add_right_comm ..).trans hlen
      rfl

/-- With an empty agenda, an RXBODY job at its start takes its text `x` and the four checksum bytes, and finishes (R104,
R164 to R166). -/
theorem run_rxBodyJob {s : State} {j : Job} {x q : List Byte} {b0 b1 b2 b3 : Byte} (hj : s.job = some j)
    (hop : j.op = .rxBody) (ha : s.agenda = []) (hq : s.rxq = x ++ ([b0, b1, b2, b3] ++ q)) (hi : j.i = 0)
    (hacc : j.acc = 0) (hn : j.n.toNat = x.length + 4) (hin : j.a.toNat + x.length ≤ s.cfg.bufBytes) :
    Host.Core.run core (x.length + 4) s = .next { s with
      rxq := q
      rxCnt := s.rxCnt + BitVec.ofNat 32 (x.length + 4)
      buf := s.buf.place j.a.toNat x
      crc := crcFold s.crc x
      claim := le32 b0 b1 b2 b3
      job := none
      status := { s.status with
        done := true
        result := .ok
        matched := decide (~~~ crcFold s.crc x = le32 b0 b1 b2 b3) } } := by
  have htext : j.textLen = x.length := by rw [Job.textLen, hn, Nat.add_sub_cancel]
  have hend : (j.i + BitVec.ofNat 32 x.length).toNat = j.textLen + 0 := by
    rw [hi, htext]
    bv_omega
  have hrun := run_rxText hj hop ha hq (by rw [hi, htext]; exact Nat.zero_add _) (htext ▸ hin)
  refine (run_add hrun 4).trans ((run_rxClaim (bs := [b0, b1, b2, b3]) (q := q)
    (j := { j with i := j.i + BitVec.ofNat 32 x.length }) ?job hop ?agenda ?queue hend rfl nofun ?total).trans ?_)
  case job => rfl
  case agenda => exact ha
  case queue => rfl
  case total => rw [hn]; exact Nat.le_add_left ..
  rw [hacc, assembled_eq_le32, hi, BitVec.ofNat_add, ← BitVec.add_assoc]
  rfl

/-- An RXBODY with its text `x` and the text's four checksum bytes waiting ends OK with the text in BUF, CLAIM the
checksum received and MATCH whether it is the text's (R164 to R166). -/
theorem run_rxBody {s : State} {x q : List Byte} {b0 b1 b2 b3 : Byte} (hj : s.job = none) (ha : s.agenda = [])
    (hq : s.rxq = x ++ ([b0, b1, b2, b3] ++ q)) (hlen : x.length = s.dlen.toNat)
    (hle : s.addr.toNat + x.length ≤ s.cfg.bufBytes) :
    ∃ u, exec .rxBody s = .next u ∧ Host.Core.run core (x.length + 4) u = .next { s with
      resp := some .okay
      rxq := q
      rxCnt := BitVec.ofNat 32 (x.length + 4)
      buf := s.buf.place s.addr.toNat x
      crc := crcFold Config.crcInit x
      claim := le32 b0 b1 b2 b3
      status := { doneStatus 0x22 .ok with matched := decide (checksum x = le32 b0 b1 b2 b3) } } := by
  have htotal : (s.dlen.setWidth 32 + 4).toNat = x.length + 4 := by
    rw [hlen]
    bv_omega
  refine ⟨_, exec_rxBody_of_le hj (hlen ▸ hle), ?_⟩
  rw [← BitVec.zero_add (BitVec.ofNat 32 (x.length + 4))]
  refine (run_rxBodyJob (j := { op := .rxBody, a := s.addr, n := s.dlen.setWidth 32 + 4 }) ?job rfl ?agenda
    (by exact hq) rfl rfl htotal ?inside).trans ?_
  case job => rfl
  case agenda => exact ha
  case inside => exact hle
  cases s; cases hj; rfl

end Sys2Proof.Machine
end

section
/-! A frame received and read back (R145): its bytes are a response of the content (R140, R141), which RXHDR and RXBODY
take from RXQ, and DECLEN and CRC_CHECK read in BUF. -/

namespace Sys2Proof.Machine

/-- The step of the host's write of a stored register while idle (R27, R28, R32, R67). -/
theorem step_writeReg_of_idle {s t : State} (r : Reg) {v : Word} {rest : List Event} (hj : s.job = none)
    (ha : s.agenda = .host r.offset (.write (.word v)) :: rest)
    (hwrite : writeReg r v { s with agenda := rest } = .next (({ s with agenda := rest } : State).writeIdle t)) :
    step s = .next (t.respond .okay) := by
  rw [step_host ha, hostAccess_writeReg, hwrite, State.writeIdle_of_idle (s := { s with agenda := rest }) hj]

/-! Slices of BUF. -/

/-- A slice read is the reads of its parts. -/
theorem State.readSlice_append {s : State} {a m n : Nat} {xs ys : List Byte} (hm : xs.length = m)
    (h : s.readSlice a (m + n) = .ok (xs ++ ys)) : s.readSlice a m = .ok xs ∧ s.readSlice (a + m) n = .ok ys := by
  obtain ⟨hlen, hread⟩ := State.readSlice_eq_ok.1 h
  rw [List.length_append, hm] at hlen
  refine ⟨State.readSlice_eq_ok.2 ⟨hm, fun k hk => ?_⟩, State.readSlice_eq_ok.2 ⟨by omega, fun k hk => ?_⟩⟩
  · rw [hread k (by rw [List.length_append]; omega), List.getElem_append_left hk]
  · rw [Nat.add_assoc, hread (m + k) (by rw [List.length_append]; omega), List.getElem_append_right (by omega)]
    simp only [hm, Nat.add_sub_cancel_left]

/-- A slice that reads lies inside BUF (R31). -/
theorem State.le_of_readSlice {s : State} {a n : Nat} {bs : List Byte} (hn : 0 < n) (h : s.readSlice a n = .ok bs) :
    a + n ≤ s.cfg.bufBytes := by
  obtain ⟨hlen, hread⟩ := State.readSlice_eq_ok.1 h
  have hlast := (State.bufRead_eq_ok.1 (hread (n - 1) (by omega))).1
  omega

/-- Bytes placed in BUF read back (R31). -/
theorem State.readSlice_place {s : State} {m : Memory} {a : Nat} {bs : List Byte} (hbuf : s.buf = m.place a bs)
    (hle : a + bs.length ≤ s.cfg.bufBytes) : s.readSlice a bs.length = .ok bs := by
  refine State.readSlice_eq_ok.2 ⟨rfl, fun k hk => State.bufRead_eq_ok.2 ⟨by omega, ?_⟩⟩
  simp [hbuf, Memory.read_place, hk]

/-! A response's bytes. -/

theorem toNat_ofNat_length {x : List Byte} (hx : x.length < 2 ^ 16) : (BitVec.ofNat 16 x.length).toNat = x.length := by
  rw [BitVec.toNat_ofNat, Nat.mod_eq_of_lt hx]

/-- The parts of a response that stands in BUF: its length's bytes, its text and its checksum's (R141). -/
theorem State.readSlice_response {s : State} {a : Nat} {x : List Byte}
    (h : s.readSlice a (2 + (x.length + 4)) = .ok (response x)) :
    s.bufRead a = .ok ((BitVec.ofNat 16 x.length).extractLsb' 0 8) ∧
    s.bufRead (a + 1) = .ok ((BitVec.ofNat 16 x.length).extractLsb' 8 8) ∧
    s.readSlice (a + 2) x.length = .ok x ∧ s.readSlice (a + 2 + x.length) 4 = .ok (le32Bytes (checksum x)) := by
  rw [response, List.append_assoc] at h
  obtain ⟨hheader, hrest⟩ := State.readSlice_append (by rfl) h
  obtain ⟨h0, hheader⟩ := State.readSlice_cons hheader
  exact ⟨h0, (State.readSlice_cons hheader).1, State.readSlice_append rfl hrest⟩

/-- The bytes of a response that waits in RXQ are received by RXHDR and RXBODY, and its checksum matches (R141, R163 to
R166). -/
theorem response_received {r : State} {x : List Byte} {a : Word} (hj : r.job = none) (hq : r.rxq = response x)
    (hx : x.length < 2 ^ 16) (hle : a.toNat + x.length ≤ r.cfg.bufBytes)
    (ha : r.agenda = [cmdWrite (encode .rxHdr), .engine, .engine, .host 0x08 (.write (.word a)),
      cmdWrite (encode .rxBody)]) :
    (∃ t, Host.Core.run core 3 r = .next t ∧ t.status = doneStatus 0x21 .ok ∧ t.dlen.toNat = x.length) ∧
    ∃ t, Host.Core.run core (5 + (x.length + 4)) r = .next t ∧
      t.status = { doneStatus 0x22 .ok with matched := true } ∧ t.claim = checksum x ∧
      t.readSlice a.toNat x.length = .ok x ∧ t.rxq = [] := by
  have hhdr := run_rxHdr (q := x ++ le32Bytes (checksum x)) hj hq ha
  rw [le16_le16Bytes] at hhdr
  have hdlen := toNat_ofNat_length hx
  refine ⟨⟨_, hhdr, rfl, hdlen⟩, ?_⟩
  obtain ⟨u, hu, hrun⟩ := run_rxBody (q := []) (s := { r with
    agenda := []
    resp := some .okay
    rxCnt := 2
    rxq := x ++ le32Bytes (checksum x)
    dlen := BitVec.ofNat 16 x.length
    status := doneStatus 0x21 .ok
    addr := a }) hj rfl rfl hdlen.symm hle
  rw [le32_le32Bytes] at hrun
  rw [show 5 + (x.length + 4) = 3 + (x.length + 4 + 1 + 1) by omega, run_add hhdr]
  refine ⟨_, (run_succ_of_step (step_writeReg_of_idle .addr ?_ (by rfl) (by rfl)) _).trans
    ((run_succ_of_step ((step_command (by rfl)).trans hu) _).trans hrun), ?_, rfl, ?_, rfl⟩
  · exact hj
  · simp
  · exact State.readSlice_place rfl hle

/-- The host writes ADDR and LEN and runs DECLEN over two defined bytes (R27, R28, R144). -/
theorem run_writeDeclen {s : State} {a n : Word} {b0 b1 : Byte} {rest : List Event} (hj : s.job = none)
    (hn : 2 ≤ n.toNat) (hle : a.toNat + n.toNat ≤ s.cfg.bufBytes) (h0 : s.bufRead a.toNat = .ok b0)
    (h1 : s.bufRead (a.toNat + 1) = .ok b1)
    (ha : s.agenda =
      .host 0x08 (.write (.word a)) :: .host 0x0C (.write (.word n)) :: cmdWrite (encode .declen) :: rest) :
    Host.Core.run core 3 s = .next { s with
      agenda := rest
      resp := some .okay
      addr := a
      len := n
      dlen := le16 b0 b1
      status := doneStatus 0x11 .ok } := by
  have hdeclen := exec_declen_of_defined (s := { s with
    agenda := rest
    resp := some .okay
    addr := a
    len := n }) hj hn hle h0 h1
  refine (run_succ_of_step (step_writeReg_of_idle .addr hj ha (by rfl)) 2).trans ?_
  refine (run_succ_of_step (step_writeReg_of_idle .len (by exact hj) (by rfl) (by rfl)) 1).trans ?_
  exact run_succ_of_step ((step_command (by rfl)).trans hdeclen) 0

/-- The host writes ADDR, LEN and CLAIM and runs CRC_CHECK over defined bytes (R27, R28, R32, R129). -/
theorem run_writeCrcCheck {s : State} {a n v : Word} {bs : List Byte} (hj : s.job = none)
    (hle : a.toNat + n.toNat ≤ s.cfg.bufBytes) (hread : s.readSlice a.toNat n.toNat = .ok bs)
    (ha : s.agenda = [.host 0x08 (.write (.word a)), .host 0x0C (.write (.word n)), .host 0x18 (.write (.word v)),
      cmdWrite (encode .crcCheck)]) :
    Host.Core.run core (n.toNat + 4) s = .next { s with
      agenda := []
      resp := some .okay
      addr := a
      len := n
      claim := v
      crc := crcFold Config.crcInit bs
      status := { doneStatus 0x05 .ok with matched := decide (checksum bs = v) } } := by
  have hcheck := run_checksumCommand (op := .crcCheck) (c0 := Config.crcInit) (s := { s with
    agenda := []
    resp := some .okay
    addr := a
    len := n
    claim := v }) (by simp) hj rfl hle (State.readSlice_congr hread rfl rfl)
  refine (run_succ_of_step (step_writeReg_of_idle .addr hj ha (by rfl)) _).trans ?_
  refine (run_succ_of_step (step_writeReg_of_idle .len (by exact hj) (by rfl) (by rfl)) _).trans ?_
  refine (run_succ_of_step (step_writeReg_of_idle .claim (by exact hj) (by rfl) (by rfl)) _).trans ?_
  exact (run_succ_of_step ((step_command (by rfl)).trans (exec_crcCheck_of_idle (by exact hj))) _).trans hcheck

/-- The bytes of a response in BUF decode to its length by DECLEN, and its checksum matches by CRC_CHECK (R129, R141,
R144). -/
theorem response_checked {r : State} {x : List Byte} {a a2 n n2 : Word} (hj : r.job = none)
    (hx : x.length < 2 ^ 16) (hread : r.readSlice a.toNat (2 + (x.length + 4)) = .ok (response x))
    (hn : n.toNat = 2 + (x.length + 4)) (ha2 : a2.toNat = a.toNat + 2) (hn2 : n2.toNat = x.length)
    (ha : r.agenda = [.host 0x08 (.write (.word a)), .host 0x0C (.write (.word n)), cmdWrite (encode .declen),
      .host 0x08 (.write (.word a2)), .host 0x0C (.write (.word n2)), .host 0x18 (.write (.word (checksum x))),
      cmdWrite (encode .crcCheck)]) :
    (∃ t, Host.Core.run core 3 r = .next t ∧ t.status = doneStatus 0x11 .ok ∧ t.dlen.toNat = x.length) ∧
    ∃ t, Host.Core.run core (7 + x.length) r = .next t ∧
      t.status = { doneStatus 0x05 .ok with matched := true } := by
  have hle := State.le_of_readSlice (by omega) hread
  obtain ⟨hb0, hb1, htext, -⟩ := State.readSlice_response hread
  have hdecoded := run_writeDeclen hj (by omega) (by omega) hb0 hb1 ha
  rw [le16_le16Bytes] at hdecoded
  rw [← ha2, ← hn2] at htext
  refine ⟨⟨_, hdecoded, rfl, toNat_ofNat_length hx⟩, ?_⟩
  rw [show 7 + x.length = 3 + (n2.toNat + 4) by omega, run_add hdecoded]
  refine ⟨_, run_writeCrcCheck (bs := x) ?idle ?range ?text (by rfl), ?_⟩
  case idle => exact hj
  case range => exact le_trans (by omega) hle
  case text => exact State.readSlice_congr htext rfl rfl
  simp

/-- Settles O29: the bytes sent are a response of the content `c :: p`, received by `response_received` and checked by
`response_checked`. -/
theorem encodedFramesDecodeBack : Obligations.EncodedFramesDecodeBack := by
  intro c p F s u hj ha hrdy hlen hle hread hu ⟨t, hrun, hout⟩
  have hp : p.length = s.len.toNat := (State.readSlice_eq_ok.1 hread).1
  rw [exec_encode_of_idle hj] at hu
  cases hu
  rw [run_encodeCommand c hj ha hrdy hlen hle hread] at hrun
  cases hrun
  obtain rfl : frame c p = F := List.append_cancel_left hout
  have hcontent : (c :: p).length = 1 + p.length := Nat.add_comm ..
  have hx : (c :: p).length < 2 ^ 16 := by omega
  rw [frame_eq_response, ← hcontent]
  refine ⟨fun r a hj hq hle ha => response_received hj hq hx hle ha, ?_⟩
  intro r a a2 len len2 cl b0 b1 b2 b3 hj hread hlen ha2 hlen2 hclaim hcl ha
  have hslice : r.readSlice a.toNat (2 + ((c :: p).length + 4)) = .ok (response (c :: p)) := by
    rw [← hread, hcontent]
    congr 1
    omega
  obtain ⟨-, -, -, hchecksum⟩ := State.readSlice_response hslice
  have hclaim : Except.ok (ε := Fault) [b0, b1, b2, b3] = .ok (le32Bytes (checksum (c :: p))) := by
    rw [← hclaim, ← hchecksum, hcontent]
    congr 1
    omega
  cases hclaim
  rw [le32_le32Bytes] at hcl
  subst hcl
  exact response_checked hj hx hslice (by omega) ha2 hlen2 ha

end Sys2Proof.Machine
end

section
/-! A receive command takes its stream in order (R160), and RXHDR and RXBODY in progress under every interleaving (R163
to R166): a step of the link only lengthens the stream, and a step of the engine takes the stream's next byte. -/

namespace Sys2Proof.Machine

/-! Values assembled from bytes. -/

theorem bytePlaced_succ (b : Byte) (k : Nat) : bytePlaced b (k + 1) = bytePlaced b k <<< 8 := by
  rw [bytePlaced, bytePlaced, Nat.mul_succ, BitVec.shiftLeft_add]

/-- One byte more goes to the next place (R163, R165). -/
theorem leWord_concat (bs : List Byte) (b : Byte) : leWord (bs ++ [b]) = leWord bs ||| bytePlaced b bs.length := by
  induction bs with
  | nil => simp [leWord, bytePlaced]
  | cons c bs ih =>
    have hcons (l : List Byte) : leWord (c :: l) = leWord l <<< 8 ||| c.setWidth 32 := rfl
    rw [List.cons_append, hcons, hcons, ih, List.length_cons, bytePlaced_succ, BitVec.shiftLeft_or_distrib]
    ac_rfl

theorem leWord_concat_take {bs : List Byte} {k : Nat} (hk : k ≤ bs.length) (b : Byte) :
    leWord (bs.take k ++ [b]) = leWord (bs.take k) ||| bytePlaced b k := by
  rw [leWord_concat, List.length_take_of_le hk]

/-- The first two bytes of a header are DLEN's (R10, R163). -/
theorem leWord_pair (b0 b1 : Byte) : (leWord [b0, b1]).setWidth 16 = le16 b0 b1 := by
  rw [← le16_eq_bytesPlaced, show [b0, b1] = [] ++ [b0] ++ [b1] from rfl, leWord_concat, leWord_concat]
  exact congrArg (BitVec.setWidth 16) (congrArg (· ||| bytePlaced b1 1) BitVec.zero_or)

/-- The four bytes of a checksum are CLAIM's (R10, R165). -/
theorem leWord_four (b0 b1 b2 b3 : Byte) : leWord [b0, b1, b2, b3] = le32 b0 b1 b2 b3 := by
  rw [← assembled_eq_le32, show [b0, b1, b2, b3] = [] ++ [b0] ++ [b1] ++ [b2] ++ [b3] from rfl]
  simp only [leWord_concat]
  rfl

/-! The stream. -/

/-- Of `stream`, the bytes delivered to an RX command, the first `i` are taken and counted, and the rest wait in RXQ
(R160). -/
structure Received (stream : List Byte) (i : Word) (s : State) : Prop where
  taken : i.toNat ≤ stream.length
  waiting : s.rxq = stream.drop i.toNat
  counted : s.rxCnt = i

theorem Received.deliver {stream d : List Byte} {i : Word} {s t : State} (h : Received stream i s)
    (hrxq : t.rxq = s.rxq ++ d) (hcnt : t.rxCnt = s.rxCnt) : Received (stream ++ d) i t where
  taken := by rw [List.length_append]; exact h.taken.trans (Nat.le_add_right ..)
  waiting := by rw [hrxq, h.waiting, List.drop_append_of_le_length h.taken]
  counted := hcnt.trans h.counted

/-- The byte at the head of RXQ is the stream's next one, and once taken it is behind (R160). -/
theorem Received.rxTake {stream q : List Byte} {i n : Word} {s : State} {b : Byte} (h : Received stream i s)
    (hlt : i.toNat < n.toNat) (hq : s.rxq = b :: q) :
    stream[i.toNat]? = some b ∧ Received stream (i + 1) s.rxTake := by
  have hsucc := toNat_succ_of_lt hlt
  have hnext : stream[i.toNat]? = some b := by
    rw [← List.head?_drop, ← h.waiting, hq]
    rfl
  obtain ⟨hin, -⟩ := List.getElem?_eq_some_iff.1 hnext
  refine ⟨hnext, hsucc ▸ hin, ?_, ?_⟩
  · rw [State.rxTake_rxq, h.waiting, List.tail_drop, hsucc]
  · rw [State.rxTake_rxCnt, h.counted]

/-- With RXQ empty, the whole stream is taken and counted (R161). -/
theorem Received.all {stream : List Byte} {i : Word} {s : State} (h : Received stream i s) (hq : s.rxq = []) :
    i.toNat = stream.length ∧ s.rxCnt = BitVec.ofNat 32 stream.length := by
  have hall := h.taken.antisymm (List.drop_eq_nil_iff.1 (h.waiting.symm.trans hq))
  refine ⟨hall, ?_⟩
  rw [← hall, BitVec.ofNat_toNat, BitVec.setWidth_eq]
  exact h.counted

/-- What an RX step does to the stream: it waits; closes on EOS with the whole stream taken; or its byte rule gets the
stream's next byte, after which the command completes or goes on (R160, R161). -/
theorem Received.rxStep {stream : List Byte} {s t : State} {j : Job} (h : Received stream j.i s)
    (hlt : j.i.toNat < j.n.toNat) (hstep : rxStep j s = .next t) :
    t = s ∨
    (s.rxEos = true ∧ s.rxq = [] ∧ t = rxClose j s) ∨
    ∃ b j' u, stream[j.i.toNat]? = some b ∧ Received stream (j.i + 1) s.rxTake ∧
      rxByteRule j b s.rxTake = .ok (j', u) ∧
      ((j'.i + 1 = j'.n ∧ rxComplete { j' with i := j'.i + 1 } u = .next t) ∨
       (j'.i + 1 ≠ j'.n ∧ t = u.start { j' with i := j'.i + 1 })) := by
  rcases rxStep_eq_next hstep with ⟨-, rfl⟩ | ⟨hEos, rfl⟩ | ⟨b, j', u, hb, hrule, ht⟩
  · exact .inl rfl
  · obtain ⟨hq, hEos⟩ := State.rxHead_eq_eos.1 hEos
    exact .inr (.inl ⟨hEos, hq, rfl⟩)
  · obtain ⟨q, hq⟩ := State.rxHead_eq_byte.1 hb
    obtain ⟨hnext, hrec⟩ := h.rxTake hlt hq
    exact .inr (.inr ⟨b, j', u, hnext, hrec, hrule, ht⟩)

/-- An engine step after which the job is still in progress has written no result (R163, R166, R182). -/
theorem results_of_engineStep {s t : State} {j j' : Job} (hj : s.job = some j) (hj' : t.job = some j')
    (h : engineStep s = .next t) : t.claim = s.claim ∧ t.dlen = s.dlen ∧ t.ver = s.ver := by
  rcases (engineMoves_of_next hj h).ends with hnone | ⟨-, hclaim, hdlen, hver, -⟩
  · rw [hj'] at hnone; cases hnone
  · exact ⟨hclaim, hdlen, hver⟩

/-- STATUS of a running command as `finish` leaves it (R102, R103). -/
theorem finished_busyStatus {st : Status} {op : Byte} (h : st = busyStatus op) (r : Result) :
    ({ st with done := true, result := r } : Status) = doneStatus op r := by
  rw [h]; rfl

/-- Two bytes taken are the stream's first two. -/
theorem Received.header {stream : List Byte} {s : State} (h : Received stream 2 s) :
    ∃ b0 b1, stream = b0 :: b1 :: s.rxq := by
  rcases stream with _ | ⟨b0, _ | ⟨b1, q⟩⟩
  · exact absurd h.taken (by simp)
  · exact absurd h.taken (by simp)
  · exact ⟨b0, b1, by rw [h.waiting]; rfl⟩

/-! RXHDR. -/

theorem HeaderAt.received {stream : List Byte} {s : State} {j : Job} (h : HeaderAt stream s j) :
    Received stream j.i s :=
  ⟨h.taken, h.waiting, h.counted⟩

/-- The link's and the host's steps append to the stream what the link delivers. -/
theorem HeaderAt.deliver {stream d : List Byte} {s t : State} {j : Job} (h : HeaderAt stream s j)
    (hrxq : t.rxq = s.rxq ++ d) (hjob : t.job = s.job := by rfl) (hcnt : t.rxCnt = s.rxCnt := by rfl)
    (hstatus : t.status = s.status := by rfl) : HeaderAt (stream ++ d) t j := by
  obtain ⟨htaken, hwaiting, hcounted⟩ := h.received.deliver hrxq hcnt
  refine ⟨hjob.trans h.job, h.opIs, h.total, h.progress, htaken, ?_, hwaiting, hcounted, hstatus.trans h.status⟩
  rw [List.take_append_of_le_length h.taken]
  exact h.assembled

/-- RXHDR's byte rule: the byte goes to its place in the assembly register (R163). -/
theorem rxByteRule_header {s : State} {j : Job} (hop : j.op = .rxHdr) (b : Byte) :
    rxByteRule j b s = .ok ({ j with acc := j.acc ||| bytePlaced b j.i.toNat }, s) := by
  simp only [rxByteRule, hop, rxHdrByte]

/-- An RX step of an RXHDR: it goes on with at most one byte more, closes on EOS, or has both bytes and finishes OK with
their value in DLEN (R163). -/
theorem HeaderAt.rxStep {stream : List Byte} {s t : State} {j : Job} (h : HeaderAt stream s j)
    (hstep : rxStep j s = .next t) :
    (∃ j', HeaderAt stream t j' ∧ (j'.i = j.i ∨ j'.i = j.i + 1)) ∨
    (s.rxEos = true ∧ s.rxq = [] ∧ t = rxClose j s) ∨
    (Received stream 2 t ∧ t.job = none ∧ t.status = doneStatus 0x21 .ok ∧
      t.dlen = (leWord (stream.take 2)).setWidth 16) := by
  rcases h.received.rxStep h.progress hstep with rfl | hclose | ⟨b, j', u, hb, hrec, hrule, ht⟩
  · exact .inl ⟨j, h, .inl rfl⟩
  · exact .inr (.inl hclose)
  · rw [rxByteRule_header h.opIs] at hrule
    cases hrule
    have hacc : j.acc ||| bytePlaced b j.i.toNat = leWord (stream.take (j.i + 1).toNat) := by
      rw [h.assembled, toNat_succ_of_lt h.progress, List.take_add_one, hb]
      exact (leWord_concat_take h.taken b).symm
    rcases ht with ⟨hn, ht⟩ | ⟨hne, rfl⟩
    · have hn : j.i + 1 = 2 := hn.trans h.total
      simp only [rxComplete, h.opIs, rxHdrComplete, hacc, hn] at ht
      cases ht
      obtain ⟨htaken, hwaiting, hcounted⟩ := hn ▸ hrec
      exact .inr (.inr ⟨⟨htaken, hwaiting, hcounted⟩, rfl, finished_busyStatus h.status .ok, rfl⟩)
    · obtain ⟨htaken, hwaiting, hcounted⟩ := hrec
      exact .inl ⟨_, ⟨rfl, h.opIs, h.total, toNat_succ_lt_of_ne h.progress hne, htaken, hacc, hwaiting, hcounted,
        h.status⟩, .inr rfl⟩

/-! RXBODY. -/

/-- RXBODY's byte rule on a text byte: to BUF and into CRC (R165). -/
theorem rxByteRule_text {s : State} {j : Job} {b : Byte} (hop : j.op = .rxBody) (hlt : j.i.toNat < j.textLen)
    (hin : j.a.toNat + j.i.toNat < s.cfg.bufBytes) :
    rxByteRule j b s =
      .ok (j, { s with buf := s.buf.write (j.a.toNat + j.i.toNat) b, crc := crcStep s.crc b }) := by
  simp only [rxByteRule, hop, rxBodyByte, if_pos hlt, State.bufWrite_eq_ok (b := b).2 ⟨hin, rfl⟩]
  rfl

/-- RXBODY's byte rule on a checksum byte: to its place in the assembly register (R165). -/
theorem rxByteRule_claim {s : State} {j : Job} (hop : j.op = .rxBody) (hge : j.textLen ≤ j.i.toNat) (b : Byte) :
    rxByteRule j b s = .ok ({ j with acc := j.acc ||| bytePlaced b (j.i.toNat - j.textLen) }, s) := by
  simp only [rxByteRule, hop, rxBodyByte, if_neg (Nat.not_lt.2 hge)]

/-- What an RXBODY at buffer base `a` for `l` text bytes has done with the bytes it has taken of `stream`, all of them
after its last step (R164, R165). -/
structure BodyTaken (a l : Nat) (stream : List Byte) (s : State) (j : Job) : Prop where
  opIs : j.op = .rxBody
  base : j.a.toNat = a
  total : j.n.toNat = l + 4
  inside : a + l ≤ s.cfg.bufBytes
  received : Received stream j.i s
  stored : s.readSlice a (min j.i.toNat l) = .ok (stream.take (min j.i.toNat l))
  folded : s.crc = crcFold Config.crcInit (stream.take (min j.i.toNat l))
  assembled : j.acc = leWord ((stream.take j.i.toNat).drop l)
  status : s.status = busyStatus 0x22

theorem bodyAt_iff {a l : Nat} {stream : List Byte} {s : State} {j : Job} :
    BodyAt a l stream s j ↔ s.job = some j ∧ j.i.toNat < j.n.toNat ∧ BodyTaken a l stream s j := by
  constructor
  · intro h
    exact ⟨h.job, h.progress, h.opIs, h.base, h.total, h.inside, ⟨h.taken, h.waiting, h.counted⟩, h.stored, h.folded,
      h.assembled, h.status⟩
  · rintro ⟨hjob, hprogress, h⟩
    obtain ⟨htaken, hwaiting, hcounted⟩ := h.received
    exact ⟨hjob, h.opIs, h.base, h.total, hprogress, htaken, h.inside, h.stored, h.folded, h.assembled, hwaiting,
      hcounted, h.status⟩

/-- The link's and the host's steps append to the stream what the link delivers. -/
theorem BodyAt.deliver {a l : Nat} {stream d : List Byte} {s t : State} {j : Job} (h : BodyAt a l stream s j)
    (hrxq : t.rxq = s.rxq ++ d) (hcfg : t.cfg = s.cfg := by rfl) (hbuf : t.buf = s.buf := by rfl)
    (hcrc : t.crc = s.crc := by rfl) (hjob : t.job = s.job := by rfl) (hcnt : t.rxCnt = s.rxCnt := by rfl)
    (hstatus : t.status = s.status := by rfl) : BodyAt a l (stream ++ d) t j := by
  obtain ⟨hj, hprogress, h⟩ := bodyAt_iff.1 h
  have hall := List.take_append_of_le_length (l₂ := d) h.received.taken
  have htext := List.take_append_of_le_length (l₂ := d) ((Nat.min_le_left _ l).trans h.received.taken)
  refine bodyAt_iff.2 ⟨hjob.trans hj, hprogress, h.opIs, h.base, h.total, hcfg ▸ h.inside,
    h.received.deliver hrxq hcnt, ?_, ?_, ?_, hstatus.trans h.status⟩
  · rw [htext]
    exact State.readSlice_congr h.stored hcfg hbuf
  · rw [htext]
    exact hcrc.trans h.folded
  · rw [hall]
    exact h.assembled

/-- A byte rule of RXBODY does with the stream's next byte what it did with those before: a text byte goes to BUF and
CRC, a checksum byte to the assembly register (R165). -/
theorem BodyTaken.rxByteRule {a l : Nat} {stream : List Byte} {s u : State} {j j' : Job} {b : Byte}
    (h : BodyTaken a l stream s j) (hlt : j.i.toNat < j.n.toNat) (hb : stream[j.i.toNat]? = some b)
    (hrec : Received stream (j.i + 1) s.rxTake) (hrule : rxByteRule j b s.rxTake = .ok (j', u)) :
    j'.i = j.i ∧ j'.n = j.n ∧ BodyTaken a l stream u { j' with i := j'.i + 1 } := by
  have hsucc := toNat_succ_of_lt hlt
  have hnext : stream.take (j.i.toNat + 1) = stream.take j.i.toNat ++ [b] := by rw [List.take_add_one, hb]; rfl
  have hlen := List.length_take_of_le h.received.taken
  have htext : j.textLen = l := by rw [Job.textLen, h.total, Nat.add_sub_cancel]
  rcases Nat.lt_or_ge j.i.toNat l with htxt | hclaim
  · have hin : j.a.toNat + j.i.toNat < s.cfg.bufBytes := by rw [h.base]; exact lt_of_lt_of_le (by omega) h.inside
    rw [rxByteRule_text (s := s.rxTake) h.opIs (htext ▸ htxt) hin] at hrule
    cases hrule
    obtain ⟨htaken, hwaiting, hcounted⟩ := hrec
    have hmin' : min (j.i + 1).toNat l = j.i.toNat + 1 := by omega
    have hstored := h.stored
    have hfolded := h.folded
    rw [Nat.min_eq_left htxt.le] at hstored hfolded
    refine ⟨rfl, rfl, h.opIs, h.base, h.total, h.inside, ⟨htaken, hwaiting, hcounted⟩, ?_, ?_, ?_, h.status⟩
    · rw [hmin', hnext]
      exact State.readSlice_write_end hstored (h.base ▸ hin) rfl (by rw [h.base]; rfl)
    · rw [hmin', crcFold_take_succ hb, ← hfolded]
      rfl
    · rw [hsucc, List.drop_eq_nil_of_le ((List.length_take_le ..).trans htxt), h.assembled,
        List.drop_eq_nil_of_le (hlen.trans_le htxt.le)]
  · rw [rxByteRule_claim h.opIs (htext ▸ hclaim)] at hrule
    cases hrule
    have hmin : min (j.i + 1).toNat l = min j.i.toNat l := by omega
    refine ⟨rfl, rfl, h.opIs, h.base, h.total, h.inside, hrec, ?_, ?_, ?_, h.status⟩
    · rw [hmin]
      exact State.readSlice_congr h.stored rfl rfl
    · rw [hmin]
      exact h.folded
    · rw [hsucc, hnext, List.drop_append_of_le_length (hclaim.trans_eq hlen.symm), leWord_concat, ← h.assembled,
        List.length_drop, hlen, htext]

/-- An RX step of an RXBODY: it goes on with at most one byte more, closes on EOS, or has taken its last byte and
completes (R165, R166). -/
theorem BodyAt.rxStep {a l : Nat} {stream : List Byte} {s t : State} {j : Job} (h : BodyAt a l stream s j)
    (hstep : rxStep j s = .next t) :
    (∃ j', BodyAt a l stream t j' ∧ (j'.i = j.i ∨ j'.i = j.i + 1)) ∨
    (s.rxEos = true ∧ s.rxq = [] ∧ t = rxClose j s) ∨
    (∃ u j', BodyTaken a l stream u j' ∧ j'.i = j'.n ∧ t =
      ({ u with claim := j'.acc }.setMatch (u.crcOut == j'.acc)).finish .ok) := by
  obtain ⟨hj, hprogress, htaken⟩ := bodyAt_iff.1 h
  rcases htaken.received.rxStep hprogress hstep with rfl | hclose | ⟨b, j', u, hb, hrec, hrule, ht⟩
  · exact .inl ⟨j, h, .inl rfl⟩
  · exact .inr (.inl hclose)
  · obtain ⟨hi, hn, hnext⟩ := htaken.rxByteRule hprogress hb hrec hrule
    rcases ht with ⟨hend, ht⟩ | ⟨hne, rfl⟩
    · rw [rxComplete, hnext.opIs] at ht
      cases ht
      exact .inr (.inr ⟨u, _, hnext, hend, rfl⟩)
    · rw [hi, hn] at hne
      have hlt : (j'.i + 1).toNat < j'.n.toNat := by
        rw [hi, hn]
        exact toNat_succ_lt_of_ne hprogress hne
      obtain ⟨hopIs, hbase, htotal, hinside, ⟨htk, hwt, hct⟩, hstored, hfolded, hassembled, hstatus⟩ := hnext
      exact .inl ⟨_, ⟨rfl, hopIs, hbase, htotal, hlt, htk, hinside, State.readSlice_congr hstored rfl rfl, hfolded,
        hassembled, hwt, hct, hstatus⟩, .inr (by rw [← hi])⟩

/-- A list of four bytes, taken apart. -/
theorem exists_four {bs : List Byte} (h : bs.length = 4) : ∃ b0 b1 b2 b3, bs = [b0, b1, b2, b3] := by
  obtain ⟨b0, bs, rfl⟩ := List.exists_cons_of_length_eq_add_one h
  obtain ⟨b1, b2, b3, rfl⟩ := List.length_eq_three.1 (Nat.succ.inj h)
  exact ⟨b0, b1, b2, b3, rfl⟩

/-- With all its bytes taken, an RXBODY holds the text in BUF and CRC and the four bytes after it in the assembly
register (R164, R165). -/
theorem BodyTaken.all {a l : Nat} {stream : List Byte} {s : State} {j : Job} (h : BodyTaken a l stream s j)
    (hend : j.i = j.n) : ∃ x b0 b1 b2 b3, stream = x ++ [b0, b1, b2, b3] ++ s.rxq ∧ x.length = l ∧
      s.readSlice a l = .ok x ∧ s.crcOut = checksum x ∧ j.acc = le32 b0 b1 b2 b3 ∧
      s.rxCnt = BitVec.ofNat 32 (l + 4) := by
  have hi : j.i.toNat = l + 4 := by rw [hend, h.total]
  obtain ⟨htaken, hwaiting, hcounted⟩ := h.received
  have hstored := h.stored
  have hfolded := h.folded
  have hassembled := h.assembled
  rw [hi] at htaken hwaiting hassembled
  rw [hi, Nat.min_eq_right (Nat.le_add_right l 4)] at hstored hfolded
  obtain ⟨b0, b1, b2, b3, hclaim⟩ := exists_four (bs := (stream.take (l + 4)).drop l) (by simp; omega)
  refine ⟨stream.take l, b0, b1, b2, b3, ?_, List.length_take_of_le (by omega), hstored, ?_, ?_, ?_⟩
  · have htext : stream.take l = (stream.take (l + 4)).take l := by simp [List.take_take]
    rw [← hclaim, htext, List.take_append_drop, hwaiting, List.take_append_drop]
  · rw [State.crcOut, hfolded, checksum]
  · rw [hassembled, hclaim, leWord_four]
  · rw [hcounted, ← hi, BitVec.ofNat_toNat, BitVec.setWidth_eq]

/-- Settles O36: by the four ways a step of a busy machine goes, and the RX step's three. -/
theorem headerAndBodyReceiveTheDeliveries : Obligations.HeaderAndBodyReceiveTheDeliveries := by
  constructor
  · intro stream s t j h hstep
    have hop : j.op ≠ .probe := by simp [h.opIs]
    rcases step_busy_eq_next h.job hstep with hreset | ⟨hnext, heng⟩ | ⟨eos, rdy, r, rfl⟩ | ⟨hcmd, -, rfl⟩
    · exact .inr (.inr (.inr (.inr hreset)))
    · have h' : HeaderAt stream { s with agenda := s.agenda.tail } j := by
        simpa using h.deliver (t := { s with agenda := s.agenda.tail }) (d := []) (by simp)
      have hrx := heng
      rw [engineStep_of_isRx h'.job (by simp [h.opIs, JobOp.isRx])] at hrx
      rcases h'.rxStep hrx with ⟨j', hgo, hi⟩ | ⟨hEos, hq, rfl⟩ | ⟨hrec, hjob, hstatus, hdlen⟩
      · rw [delivered_of_engineNext hnext, List.append_nil]
        obtain ⟨-, hdlen, -⟩ := results_of_engineStep h'.job hgo.job heng
        exact .inl ⟨j', hgo, hdlen, hi⟩
      · obtain ⟨hall, hcnt⟩ := h.received.all hq
        rw [rxClose_of_ne_probe hop]
        refine .inr (.inr (.inl ⟨hnext, hEos, rfl, finished_busyStatus h.status .closed, ?_, hq, hcnt, rfl⟩))
        simpa [← hall, h.total] using h.progress
      · obtain ⟨b0, b1, hstream⟩ := hrec.header
        refine .inr (.inl ⟨hnext, hjob, hstatus, hrec.counted, b0, b1, hstream, ?_⟩)
        rw [hdlen, hstream, ← le16_eq_or]
        exact leWord_pair b0 b1
    · exact .inl ⟨j, h.deliver rfl, rfl, .inl rfl⟩
    · rw [rxTimeout_of_ne_probe hop]
      exact .inr (.inr (.inr (.inl ⟨hcmd, rfl, finished_busyStatus h.status .timedOut, rfl, rfl, rfl⟩)))
  · intro a l stream s t j h hstep
    have hop : j.op ≠ .probe := by simp [h.opIs]
    rcases step_busy_eq_next h.job hstep with hreset | ⟨hnext, heng⟩ | ⟨eos, rdy, r, rfl⟩ | ⟨hcmd, -, rfl⟩
    · exact .inr (.inr (.inr (.inr hreset)))
    · have h' : BodyAt a l stream { s with agenda := s.agenda.tail } j := by
        simpa using h.deliver (t := { s with agenda := s.agenda.tail }) (d := []) (by simp)
      have hrx := heng
      rw [engineStep_of_isRx h'.job (by simp [h.opIs, JobOp.isRx])] at hrx
      rcases h'.rxStep hrx with ⟨j', hgo, hi⟩ | ⟨hEos, hq, rfl⟩ | ⟨u, j', hu, hend, rfl⟩
      · rw [delivered_of_engineNext hnext, List.append_nil]
        obtain ⟨hclaim, -, -⟩ := results_of_engineStep h'.job hgo.job heng
        exact .inl ⟨j', hgo, hclaim, hi⟩
      · obtain ⟨-, -, htaken⟩ := bodyAt_iff.1 h
        obtain ⟨hall, hcnt⟩ := htaken.received.all hq
        have htext : stream.take (min j.i.toNat l) = stream.take l := by
          rw [hall, Nat.min_comm, ← List.take_eq_take_min]
        rw [rxClose_of_ne_probe hop]
        refine .inr (.inr (.inl ⟨hnext, hEos, rfl, finished_busyStatus h.status .closed, ?_, ?_, ?_, hq, hcnt, rfl⟩))
        · rw [← hall, ← h.total]
          exact h.progress
        · rw [← htext, ← hall]
          exact State.readSlice_congr h.stored rfl rfl
        · rw [← htext, checksum, ← h.folded]
          rfl
      · obtain ⟨x, b0, b1, b2, b3, hstream, hx, hstored, hcrc, hacc, hcnt⟩ := hu.all hend
        refine .inr (.inl ⟨hnext, rfl, hcnt, x, b0, b1, b2, b3, hstream, hx, State.readSlice_congr hstored rfl rfl,
          hcrc, hacc, ?_⟩)
        rw [hcrc, hacc, Bool.beq_eq_decide_eq]
        simp only [State.finish_status, State.setMatch_status, hu.status]
        rfl
    · exact .inl ⟨j, h.deliver rfl, rfl, .inl rfl⟩
    · rw [rxTimeout_of_ne_probe hop]
      exact .inr (.inr (.inr (.inl ⟨hcmd, rfl, finished_busyStatus h.status .timedOut, rfl, rfl, rfl, rfl, rfl⟩)))

end Sys2Proof.Machine
end

section
/-! A PROBE in progress under every interleaving (R160, R180 to R184): it fills BUF as an RXRAW of eight bytes does, and
its end classifies. -/

namespace Sys2Proof.Machine

/-- PROBE's completion rule classifies the eight bytes in BUF, and writes VER only where they match (R182). -/
theorem probeComplete_eq_next {s t : State} {j : Job} (h : probeComplete j s = .next t) :
    ∃ hdr, s.readSlice j.a.toNat Config.headerBytes = .ok hdr ∧ t = State.finish { s with
      ver := if headerMatches hdr then headerVersion hdr else s.ver
      status := { s.status with cls := if headerMatches hdr then .detected else .notDetected } } .ok := by
  unfold probeComplete at h
  split at h
  · cases h
  · next hdr hread =>
    refine ⟨hdr, hread, ?_⟩
    split at h <;> next hmatch => cases h; simp only [hmatch]; rfl

/-- A PROBE's engine step writes VER only where it classifies DETECTED (R182, R183). -/
theorem probe_ver_of_rxStep {s t : State} {j : Job} (hop : j.op = .probe) (h : rxStep j s = .next t) :
    t.ver = s.ver ∨ t.status.cls = .detected := by
  rcases rxStep_eq_next h with ⟨-, rfl⟩ | ⟨-, rfl⟩ | ⟨b, j', u, -, hrule, ht⟩
  · exact .inl rfl
  · rw [rxClose_frame]
    exact .inl rfl
  · obtain ⟨⟨x, rfl⟩, hu, -⟩ := rxByteRule_frame hrule
    have hver : u.ver = s.ver := by rw [hu]; rfl
    rcases ht with ⟨-, ht⟩ | ⟨-, rfl⟩
    · rw [rxComplete, hop] at ht
      obtain ⟨hdr, -, rfl⟩ := probeComplete_eq_next ht
      rw [State.finish_ver, State.finish_status]
      split
      · exact .inr rfl
      · exact .inl hver
    · exact .inl hver

/-- The magic constant is looked for in bytes 0 to 3 of the eight (R182). -/
theorem headerMatches_take (bs : List Byte) :
    headerMatches (bs.take 8) = decide (bs.take 4 = [0x50, 0x00, 0x49, 0x00]) := by
  rw [headerMatches, List.take_take, Bool.beq_eq_decide_eq]
  rfl

/-- The version is bytes 4 and 5 of the eight (R10, R182). -/
theorem headerVersion_take (bs : List Byte) :
    headerVersion (bs.take 8) = (bs.getD 4 0).setWidth 16 ||| ((bs.getD 5 0).setWidth 16 <<< 8) := by
  simp only [headerVersion, le16_eq_or, List.getD_eq_getElem?_getD, List.getElem?_take_of_lt (show 4 < 8 by decide),
    List.getElem?_take_of_lt (show 5 < 8 by decide)]

/-- Settles O40: by the four ways a step of a busy machine goes, and the RX step's three. -/
theorem probeAccumulatesTheDeliveries : Obligations.ProbeAccumulatesTheDeliveries := by
  intro a stream s t j h hver hstep
  rcases step_busy_eq_next h.job hstep with hreset | ⟨hnext, heng⟩ | ⟨eos, rdy, r, rfl⟩ | ⟨hcmd, -, rfl⟩
  · exact .inr (.inr (.inr (.inr hreset)))
  · have h' : FillAt .probe a 8 stream { s with agenda := s.agenda.tail } j := by
      simpa using h.deliver (t := { s with agenda := s.agenda.tail }) (d := []) (by simp)
    have hrx := heng
    rw [engineStep_of_isRx h'.job (by simp [h.opIs, JobOp.isRx])] at hrx
    rcases h'.rxStep (.inr rfl) hrx with ⟨j', hgo, hi⟩ | ⟨hEos, hq, hall, rfl⟩ | ⟨u, j', hu, hdone⟩
    · rw [delivered_of_engineNext hnext, List.append_nil]
      obtain ⟨-, -, hkeep⟩ := results_of_engineStep h'.job hgo.job heng
      exact .inl ⟨j', hgo, hkeep.trans hver, hi⟩
    · have hstored := h.stored
      rw [hall, List.take_length] at hstored
      rw [rxClose, h.opIs]
      refine .inr (.inr (.inl ⟨hnext, hEos, rfl, ?_, State.readSlice_congr hstored rfl rfl, hq, ?_, hver, ?_⟩))
      · rw [← hall, ← h.total]
        exact h.progress
      · rw [← hall, BitVec.ofNat_toNat, BitVec.setWidth_eq]
        exact h.counted
      · simp only [State.finish_status, State.setClass_status, h.status]
        rfl
    · have hkeep := probe_ver_of_rxStep h.opIs hrx
      rw [rxComplete, hu.opIs] at hdone
      obtain ⟨hdr, hread, rfl⟩ := probeComplete_eq_next hdone
      rw [hu.base] at hread
      cases hu.stored.symm.trans hread
      rw [headerMatches_take, headerVersion_take] at hkeep ⊢
      refine .inr (.inl ⟨hnext, rfl, hu.enough, State.readSlice_congr hu.stored rfl rfl, hu.waiting, hu.counted, ?_,
        ?_⟩)
      · simp only [State.finish_status, hu.status, decide_eq_true_eq]
        rfl
      · by_cases hmagic : stream.take 4 = [0x50, 0x00, 0x49, 0x00]
        · simp [hmagic]
        · rw [if_neg hmagic]
          exact (hkeep.resolve_right (by simpa using hmagic)).trans hver
  · exact .inl ⟨j, h.deliver rfl, hver, .inl rfl⟩
  · rw [rxTimeout, h.opIs]
    refine .inr (.inr (.inr (.inl ⟨hcmd, rfl, rfl, rfl, rfl, hver, ?_⟩)))
    simp only [State.finish_status, State.setClass_status, h.status]
    rfl

end Sys2Proof.Machine
end

section
/-! The rules of RXRAW, RXHDR, RXBODY and RXFLUSH, command by command (R161 to R167), and the runs of the engine over
bytes that wait in RXQ (R168). -/

namespace Sys2Proof.Machine

/-! The close and the timeout rule RXRAW, RXHDR and RXBODY share (R161). -/

/-- On EOS the engine ends the command with CLOSED. -/
theorem engineStep_of_rxEos {s : State} {j : Job} (hj : s.job = some j) (hrx : j.op.isRx = true) (hop : j.op ≠ .probe)
    (hq : s.rxq = []) (hEos : s.rxEos = true) : engineStep s = .next (s.finish .closed) := by
  rw [engineStep_of_isRx hj hrx, rxStep_of_eos j hq hEos, rxClose_of_ne_probe hop]

/-- A DEADLINE ends the command with TIMEDOUT. -/
theorem exec_deadline_of_receive {s : State} {j : Job} (hj : s.job = some j) (hrx : j.op.isRx = true)
    (hop : j.op ≠ .probe) : exec .deadline s = .next ((s.respond .okay).finish .timedOut) := by
  rw [exec_deadline_of_busy hj, if_pos hrx, rxTimeout_of_ne_probe hop]

/-! RXRAW. -/

theorem exec_rxRaw_of_gt {s : State} (hj : s.job = none) (hgt : s.cfg.bufBytes < s.addr.toNat + s.len.toNat) :
    exec .rxRaw s = .next { s with resp := some .okay, status := doneStatus 0x24 .range } := by
  rw [exec, execRxRaw, State.whenIdle_of_idle hj]
  refine (State.checkRange_of_gt (s := (s.respond .okay).accept 0x24) hgt _).trans ?_
  cases s; cases hj; rfl

theorem exec_rxRaw_of_le {s : State} (hj : s.job = none) (hle : s.addr.toNat + s.len.toNat ≤ s.cfg.bufBytes) :
    exec .rxRaw s = .next (
      if s.len = 0 then { s with resp := some .okay, rxCnt := 0, status := doneStatus 0x24 .ok }
      else { s with
        resp := some .okay
        rxCnt := 0
        status := busyStatus 0x24
        job := some { op := .rxRaw, a := s.addr, n := s.len } }) := by
  rw [exec, execRxRaw, State.whenIdle_of_idle hj]
  refine (State.checkRange_of_le (s := (s.respond .okay).accept 0x24) hle _).trans ?_
  cases s; cases hj
  dsimp only [State.rxRestart, State.accept, State.respond]
  split <;> rfl

/-- RXRAW's engine step on a byte: to BUF, and the last one completes (R162). -/
theorem engineStep_of_rxRaw {s : State} {j : Job} {b : Byte} {q : List Byte} (hj : s.job = some j)
    (hop : j.op = .rxRaw) (hq : s.rxq = b :: q) (hin : j.a.toNat + j.i.toNat < s.cfg.bufBytes) :
    engineStep s = .next (
      if j.i + 1 = j.n then { s with
        rxq := q
        rxCnt := s.rxCnt + 1
        buf := s.buf.write (j.a.toNat + j.i.toNat) b
        job := none
        status := { s.status with done := true, result := .ok } }
      else { s with
        rxq := q
        rxCnt := s.rxCnt + 1
        buf := s.buf.write (j.a.toNat + j.i.toNat) b
        job := some { j with i := j.i + 1 } }) := by
  rw [engineStep_of_isRx hj (by simp [hop, JobOp.isRx]),
    rxStep_of_byte hq (rxByteRule_fill (s := s.rxTake) (.inl hop) hin)]
  simp only [rxComplete, hop]
  cases s; cases hq
  split <;> rfl

/-- With an empty agenda, an RXRAW job with fewer bytes waiting than it still needs stores them, one in a step, and goes
on (R104, R162). -/
theorem run_rxRawJob {s : State} {j : Job} {bs q : List Byte} (hj : s.job = some j) (hop : j.op = .rxRaw)
    (ha : s.agenda = []) (hq : s.rxq = bs ++ q) (hlt : j.i.toNat + bs.length < j.n.toNat)
    (hin : j.a.toNat + j.n.toNat ≤ s.cfg.bufBytes) :
    Host.Core.run core bs.length s = .next { s with
      rxq := q
      rxCnt := s.rxCnt + BitVec.ofNat 32 bs.length
      buf := s.buf.place (j.a.toNat + j.i.toNat) bs
      job := some { j with i := j.i + BitVec.ofNat 32 bs.length } } := by
  induction bs generalizing s j with
  | nil =>
    simp only [List.length_nil, BitVec.add_zero]
    cases s; cases hj; cases hq; rfl
  | cons b bs ih =>
    rw [List.length_cons] at hlt
    have hsucc : (j.i + 1).toNat = j.i.toNat + 1 := toNat_succ_of_lt (n := j.n) (by omega)
    have hmore : j.i + 1 ≠ j.n := fun h => by
      rw [← h] at hlt
      omega
    have hstep := (step_of_nil ha).trans (engineStep_of_rxRaw hj hop hq (by omega))
    rw [if_neg hmore] at hstep
    rw [List.length_cons, run_succ_of_step hstep, ofNat_succ_add, ofNat_succ_add]
    refine (ih (j := { j with i := j.i + 1 }) ?job hop ?agenda ?queue ?left ?inside).trans ?_
    case job => rfl
    case agenda => exact ha
    case queue => rfl
    case left =>
      simp only [hsucc]
      omega
    case inside => exact hin
    simp only [hsucc]
    rfl

/-- An accepted RXRAW with fewer than LEN bytes waiting, and an empty agenda, stores them and goes on. -/
theorem run_rxRaw {s : State} {bs q : List Byte} (hj : s.job = none) (ha : s.agenda = []) (hq : s.rxq = bs ++ q)
    (hlt : bs.length < s.len.toNat) (hle : s.addr.toNat + s.len.toNat ≤ s.cfg.bufBytes) :
    ∃ u, exec .rxRaw s = .next u ∧ Host.Core.run core bs.length u = .next { s with
      resp := some .okay
      rxq := q
      rxCnt := BitVec.ofNat 32 bs.length
      buf := s.buf.place s.addr.toNat bs
      status := busyStatus 0x24
      job := some { op := .rxRaw, a := s.addr, n := s.len, i := BitVec.ofNat 32 bs.length } } := by
  have hlen : s.len ≠ 0 := fun h => by simp [h] at hlt
  refine ⟨_, (exec_rxRaw_of_le hj hle).trans (by rw [if_neg hlen]), ?_⟩
  refine (run_rxRawJob (j := { op := .rxRaw, a := s.addr, n := s.len }) (q := q) ?job rfl ?agenda ?queue ?left
    ?inside).trans ?_
  case job => rfl
  case agenda => exact ha
  case queue => exact hq
  case left => exact (Nat.zero_add _).trans_lt hlt
  case inside => exact hle
  simp

theorem Memory.place_concat (m : Memory) (a : Nat) (bs : List Byte) (b : Byte) :
    m.place a (bs ++ [b]) = (m.place a bs).write (a + bs.length) b := by
  induction bs generalizing m a with
  | nil => rfl
  | cons c bs ih => rw [List.cons_append, Memory.place, ih, List.length_cons, Nat.add_right_comm]; rfl

/-- An accepted RXRAW with LEN bytes waiting, and an empty agenda, takes them and ends OK (R162, R168). -/
theorem run_rxRaw_ok {s : State} {bs q : List Byte} (hj : s.job = none) (ha : s.agenda = []) (hq : s.rxq = bs ++ q)
    (hlen : bs.length = s.len.toNat) (hle : s.addr.toNat + s.len.toNat ≤ s.cfg.bufBytes) :
    ∃ u, exec .rxRaw s = .next u ∧ Host.Core.run core bs.length u = .next { s with
      resp := some .okay
      rxq := q
      rxCnt := s.len
      buf := s.buf.place s.addr.toNat bs
      status := doneStatus 0x24 .ok } := by
  rcases List.eq_nil_or_concat' bs with rfl | ⟨xs, b, rfl⟩
  · have hzero : s.len = 0 := BitVec.eq_of_toNat_eq hlen.symm
    refine ⟨_, (exec_rxRaw_of_le hj hle).trans (by rw [if_pos hzero]), ?_⟩
    rw [hzero]
    cases s; cases hq; rfl
  · rw [List.length_append, List.length_singleton] at hlen ⊢
    have hlast : BitVec.ofNat 32 xs.length + 1 = s.len := by bv_omega
    have hplace : (BitVec.ofNat 32 xs.length).toNat = xs.length := by bv_omega
    obtain ⟨u, hu, hrun⟩ := run_rxRaw (q := b :: q) hj ha (by rw [hq, List.append_assoc]; rfl) (by omega) hle
    refine ⟨u, hu, (run_add hrun 1).trans ((run_succ_of_step ((step_of_nil ?agenda).trans (engineStep_of_rxRaw
      (j := { op := .rxRaw, a := s.addr, n := s.len, i := BitVec.ofNat 32 xs.length }) (b := b) (q := q) ?job rfl ?queue
      ?inside)) 0).trans ?_)⟩
    case agenda => exact ha
    case job => rfl
    case queue => rfl
    case inside => simp only [hplace]; omega
    rw [if_pos (by exact hlast), Memory.place_concat, ← hlast]
    simp only [hplace]
    cases s; cases hj; rfl

/-- Settles O30: rule by rule; where the stream ends early, `run_rxRaw` stores what came and the next turn closes. -/
theorem rxRawReceivesOrCloses : Obligations.RxRawReceivesOrCloses := by
  refine ⟨rfl, fun s hj => ⟨0, 0, ?start⟩, fun s j hj => exec_of_busy hj nofun,
    fun s j b q hj hop hq hin => ?byte, fun s j hj hop hq hEos => ?close,
    fun s j hj hop => ?timeout, fun s bs hj ha hq hEos hlt hle => ?closed⟩
  case start =>
    split
    · next hgt => exact exec_rxRaw_of_gt hj hgt
    · next hle => exact exec_rxRaw_of_le hj (Nat.not_lt.1 hle)
  case byte => exact engineStep_of_rxRaw hj hop hq hin
  case close => exact engineStep_of_rxEos hj (by simp [hop, JobOp.isRx]) (by simp [hop]) hq hEos
  case timeout => exact exec_deadline_of_receive hj (by simp [hop, JobOp.isRx]) (by simp [hop])
  case closed =>
    obtain ⟨u, hu, hrun⟩ := run_rxRaw (q := []) hj ha (by rw [hq, List.append_nil]) hlt hle
    refine ⟨u, hu, _, (run_add hrun 1).trans (run_succ_of_step ((step_of_nil ?agenda).trans (engineStep_of_rxEos
      (j := { op := .rxRaw, a := s.addr, n := s.len, i := BitVec.ofNat 32 bs.length }) ?job rfl nofun ?queue ?eos)) 0),
      State.readSlice_place rfl ?inside, ?_⟩
    case agenda => exact ha
    case job => rfl
    case queue => rfl
    case eos => exact hEos
    case inside => exact le_trans (by omega) hle
    cases s; cases hj; rfl

/-- Settles O31: BUF after `run_rxRaw_ok` is the one before with the bytes placed at ADDR. -/
theorem rxRawTakesExactlyLenBytes : Obligations.RxRawTakesExactlyLenBytes := by
  intro s bs rest hj ha hq hlen hle
  obtain ⟨u, hu, hrun⟩ := run_rxRaw_ok hj ha hq hlen hle
  rw [← hlen] at hle ⊢
  refine ⟨u, hu, _, hrun, State.readSlice_place rfl hle, fun x hx => ?_, rfl⟩
  rw [Memory.read_place, dif_neg (by omega)]

/-! RXHDR. -/

/-- RXHDR's engine step on a byte: to its place in the assembly register, and the last one to DLEN (R163). -/
theorem engineStep_of_rxHdr {s : State} {j : Job} {b : Byte} {q : List Byte} (hj : s.job = some j)
    (hop : j.op = .rxHdr) (hq : s.rxq = b :: q) :
    engineStep s = .next (
      if j.i + 1 = j.n then { s with
        rxq := q
        rxCnt := s.rxCnt + 1
        dlen := (j.acc ||| bytePlaced b j.i.toNat).setWidth 16
        job := none
        status := { s.status with done := true, result := .ok } }
      else { s with
        rxq := q
        rxCnt := s.rxCnt + 1
        job := some { j with i := j.i + 1, acc := j.acc ||| bytePlaced b j.i.toNat } }) := by
  rw [engineStep_of_isRx hj (by simp [hop, JobOp.isRx]), rxStep_of_byte hq (rxByteRule_header hop b)]
  simp only [rxComplete, hop, rxHdrComplete]
  cases s; cases hq
  split <;> rfl

/-- The invariant keeps what RXHDR has assembled after its last byte within DLEN's 16 bits (R163). -/
theorem JobOk.header_fits {s : State} {j : Job} (h : JobOk s j) (hop : j.op = .rxHdr) (hn : j.i + 1 = j.n) (b : Byte) :
    (j.acc ||| bytePlaced b j.i.toNat).toNat < 2 ^ 16 := by
  have htotal : j.n = 2 := by
    have hfits := h.fits
    rwa [Job.fits, hop] at hfits
  have hlast : j.i.toNat + 1 = 2 := by rw [← toNat_succ_of_lt h.progress, hn, htotal]; rfl
  have hacc := rxByteRule_assembled h hop (rxByteRule_header hop b)
  rwa [hlast] at hacc

/-- Settles O33: rule by rule; with two bytes waiting, the engine's step runs twice. -/
theorem rxHdrReadsTheLength : Obligations.RxHdrReadsTheLength := by
  refine ⟨rfl, fun s hj => ⟨0, 0, exec_rxHdr_of_idle hj⟩, fun s j hj => exec_of_busy hj nofun,
    fun s j b q hj hop hq hn => ?byte, fun s j b q hinv hj hop hq hn => ?complete,
    fun s j hj hop hq hEos => ?close, fun s j hj hop => ?timeout, fun s b0 b1 rest hj ha hq => ?runs⟩
  case byte =>
    rw [engineStep_of_rxHdr hj hop hq, if_neg hn]
    rfl
  case complete =>
    refine ⟨_, ?_, (engineStep_of_rxHdr hj hop hq).trans (by rw [if_pos hn])⟩
    have hlt := (hinv.busyOk j hj).header_fits hop hn b
    refine BitVec.eq_of_toNat_eq ?_
    rw [BitVec.toNat_setWidth, BitVec.toNat_setWidth, Nat.mod_eq_of_lt hlt, Nat.mod_eq_of_lt (hlt.trans (by decide))]
    rfl
  case close => exact engineStep_of_rxEos hj (by simp [hop, JobOp.isRx]) (by simp [hop]) hq hEos
  case timeout => exact exec_deadline_of_receive hj (by simp [hop, JobOp.isRx]) (by simp [hop])
  case runs =>
    refine ⟨_, exec_rxHdr_of_idle hj, ?_⟩
    rw [← le16_eq_or, ← le16_eq_bytesPlaced, ← BitVec.zero_or (x := bytePlaced b0 0)]
    cases s; cases hj; cases ha; cases hq; rfl

/-! RXBODY. -/

theorem exec_rxBody_of_gt {s : State} (hj : s.job = none) (hgt : s.cfg.bufBytes < s.addr.toNat + s.dlen.toNat) :
    exec .rxBody s = .next { s with resp := some .okay, status := doneStatus 0x22 .range } := by
  rw [exec, execRxBody, State.whenIdle_of_idle hj]
  refine (State.checkRange_of_gt (s := (s.respond .okay).accept 0x22) hgt _).trans ?_
  cases s; cases hj; rfl

/-- RXBODY's engine step on a checksum byte: to its place in the assembly register, and with the last one to CLAIM,
which MATCH compares with CRCOUT (R165, R166). -/
theorem engineStep_of_rxBodyClaim {s : State} {j : Job} {b : Byte} {q : List Byte} (hj : s.job = some j)
    (hop : j.op = .rxBody) (hq : s.rxq = b :: q) (hge : j.textLen ≤ j.i.toNat) :
    engineStep s = .next (
      if j.i + 1 = j.n then { s with
        rxq := q
        rxCnt := s.rxCnt + 1
        claim := j.acc ||| bytePlaced b (j.i.toNat - j.textLen)
        job := none
        status := { s.status with
          done := true
          result := .ok
          matched := decide (~~~ s.crc = j.acc ||| bytePlaced b (j.i.toNat - j.textLen)) } }
      else { s with
        rxq := q
        rxCnt := s.rxCnt + 1
        job := some { j with i := j.i + 1, acc := j.acc ||| bytePlaced b (j.i.toNat - j.textLen) } }) := by
  rw [engineStep_of_isRx hj (by simp [hop, JobOp.isRx]), rxStep_of_byte hq (rxByteRule_claim hop hge b)]
  simp only [rxComplete, hop, rxBodyComplete, Bool.beq_eq_decide_eq]
  cases s; cases hq
  split <;> rfl

/-- Settles O34: rule by rule; a byte is text before place L, the checksum's from there on. -/
theorem rxBodyStartsAndSteps : Obligations.RxBodyStartsAndSteps := by
  refine ⟨rfl, fun s hj => ⟨0, ?start⟩, fun s j hj => exec_of_busy hj nofun,
    fun s j b q hj hop hq hn hin => ?byte, fun s j b q acc hj hop hq hn hlen hacc => ?complete,
    fun s j hj hop hq hEos => ?close, fun s j hj hop => ?timeout⟩
  case start =>
    split
    · next hgt => exact exec_rxBody_of_gt hj hgt
    · next hle => exact exec_rxBody_of_le hj (Nat.not_lt.1 hle)
  case byte =>
    split
    · next hlt => exact engineStep_of_rxText hj hop hq hlt (hin hlt)
    · next hge =>
      rw [engineStep_of_rxBodyClaim hj hop hq (Nat.not_lt.1 hge), if_neg hn]
      rfl
  case complete =>
    have hge : j.textLen ≤ j.i.toNat := by
      rw [Job.textLen]
      bv_omega
    rw [engineStep_of_rxBodyClaim hj hop hq hge, if_pos hn, hacc]
    rfl
  case close => exact engineStep_of_rxEos hj (by simp [hop, JobOp.isRx]) (by simp [hop]) hq hEos
  case timeout => exact exec_deadline_of_receive hj (by simp [hop, JobOp.isRx]) (by simp [hop])

/-- Settles O35: BUF after `run_rxBody` is the one before with the text placed at ADDR. -/
theorem rxBodyReceivesAndChecks : Obligations.RxBodyReceivesAndChecks := by
  intro s x rest b0 b1 b2 b3 hj ha hq hlen hle
  obtain ⟨u, hu, hrun⟩ := run_rxBody (q := rest) hj ha (by rw [hq, List.append_assoc]) hlen hle
  refine ⟨u, hu, _, hrun, State.readSlice_place rfl hle, fun y hy => ?_, rfl⟩
  rw [Memory.read_place, dif_neg (by omega)]

/-! RXFLUSH. -/

/-- Settles O37: accepted and finished in one step while idle, refused while busy; the count is a 32-bit one. -/
theorem rxFlushDropsTheWaitingBytes : Obligations.RxFlushDropsTheWaitingBytes := by
  refine ⟨rfl, fun s hj => ?_, fun s j hj => exec_of_busy hj nofun⟩
  have hcnt : BitVec.ofNat 32 (s.rxq.length % 2 ^ 32) = BitVec.ofNat 32 s.rxq.length :=
    BitVec.eq_of_toNat_eq (Nat.mod_mod ..)
  rw [hcnt, exec, execRxFlush, State.whenIdle_of_idle hj]
  cases s; cases hj; rfl

end Sys2Proof.Machine
end

section
/-! The rules of PROBE (R180 to R183), and the run of the engine over eight bytes that wait in RXQ. -/

namespace Sys2Proof.Machine

/-! The start rule. -/

theorem exec_probe_of_gt {s : State} (hj : s.job = none) (hgt : s.cfg.bufBytes < s.addr.toNat + 8) :
    exec .probe s = .next { s with resp := some .okay, status := doneStatus 0x20 .range } := by
  rw [exec, execProbe, State.whenIdle_of_idle hj]
  refine (State.checkRange_of_gt (s := (s.respond .okay).accept 0x20) hgt _).trans ?_
  cases s; cases hj; rfl

theorem exec_probe_of_le {s : State} (hj : s.job = none) (hle : s.addr.toNat + 8 ≤ s.cfg.bufBytes) :
    exec .probe s = .next { s with
      resp := some .okay
      ver := 0
      rxCnt := 0
      status := busyStatus 0x20
      job := some { op := .probe, a := s.addr, n := 8 } } := by
  rw [exec, execProbe, State.whenIdle_of_idle hj]
  exact State.checkRange_of_le (s := (s.respond .okay).accept 0x20) hle _

/-! The engine. -/

/-- PROBE's engine step on a byte that is not the last: to BUF (R181). -/
theorem engineStep_of_probe {s : State} {j : Job} {b : Byte} {q : List Byte} (hj : s.job = some j)
    (hop : j.op = .probe) (hq : s.rxq = b :: q) (hmore : j.i + 1 ≠ j.n)
    (hin : j.a.toNat + j.i.toNat < s.cfg.bufBytes) :
    engineStep s = .next { s with
      rxq := q
      rxCnt := s.rxCnt + 1
      buf := s.buf.write (j.a.toNat + j.i.toNat) b
      job := some { j with i := j.i + 1 } } := by
  rw [engineStep_of_isRx hj (by simp [hop, JobOp.isRx]),
    rxStep_of_byte hq (rxByteRule_fill (s := s.rxTake) (.inr hop) hin), if_neg hmore]
  cases s; cases hq; rfl

/-- PROBE's completion rule on the header `hdr` in BUF (R182). -/
theorem probeComplete_of_readSlice {s : State} {j : Job} {hdr : List Byte}
    (hread : s.readSlice j.a.toNat 8 = .ok hdr) :
    probeComplete j s = .next { s with
      job := none
      ver := if headerMatches hdr then headerVersion hdr else s.ver
      status := { s.status with
        done := true
        result := .ok
        cls := if headerMatches hdr then .detected else .notDetected } } := by
  simp only [probeComplete, Config.headerBytes, hread]
  split <;> rfl

/-- PROBE's engine step on the eighth byte: to BUF, and the eight bytes there are classified (R181, R182). -/
theorem engineStep_of_probe_last {s : State} {j : Job} {hdr : List Byte} {b : Byte} {q : List Byte}
    (hj : s.job = some j) (hop : j.op = .probe) (hi : j.i = 7) (hn : j.n = 8)
    (hin : j.a.toNat + 8 ≤ s.cfg.bufBytes) (hread : s.readSlice j.a.toNat 7 = .ok hdr) (hq : s.rxq = b :: q) :
    engineStep s = .next { s with
      rxq := q
      rxCnt := s.rxCnt + 1
      buf := s.buf.write (j.a.toNat + 7) b
      job := none
      ver := if headerMatches (hdr ++ [b]) then headerVersion (hdr ++ [b]) else s.ver
      status := { s.status with
        done := true
        result := .ok
        cls := if headerMatches (hdr ++ [b]) then .detected else .notDetected } } := by
  have hseven : j.i.toNat = 7 := by rw [hi]; rfl
  rw [engineStep_of_isRx hj (by simp [hop, JobOp.isRx]),
    rxStep_of_byte hq (rxByteRule_fill (s := s.rxTake) (.inr hop) (show _ < s.cfg.bufBytes by omega)),
    if_pos (by rw [hi, hn]; rfl)]
  simp only [rxComplete, hop, hseven]
  refine (probeComplete_of_readSlice (State.readSlice_write_end (b := b) hread (by omega) ?cfg ?buf)).trans ?_
  case cfg => rfl
  case buf => rfl
  cases s; cases hq; rfl

/-- On EOS a PROBE ends with CLOSED, and no module is detected (R183). -/
theorem engineStep_of_probe_eos {s : State} {j : Job} (hj : s.job = some j) (hop : j.op = .probe) (hq : s.rxq = [])
    (hEos : s.rxEos = true) : engineStep s = .next ((s.setClass .notDetected).finish .closed) := by
  rw [engineStep_of_isRx hj (by simp [hop, JobOp.isRx]), rxStep_of_eos j hq hEos, rxClose, hop]

/-- A DEADLINE ends a PROBE with TIMEDOUT, and no module is detected (R183). -/
theorem exec_deadline_of_probe {s : State} {j : Job} (hj : s.job = some j) (hop : j.op = .probe) :
    exec .deadline s = .next (((s.respond .okay).setClass .notDetected).finish .timedOut) := by
  rw [exec_deadline_of_busy hj, if_pos (by simp [hop, JobOp.isRx]), rxTimeout, hop]

/-! The header. -/

/-- A header matches by its first four bytes alone (R182). -/
theorem headerMatches_cons (h0 h1 h2 h3 : Byte) (bs : List Byte) :
    headerMatches (h0 :: h1 :: h2 :: h3 :: bs) = decide (h0 = 0x50 ∧ h1 = 0x00 ∧ h2 = 0x49 ∧ h3 = 0x00) := by
  rw [headerMatches, Bool.beq_eq_decide_eq]
  simp [Config.magicBytes]

theorem headerVersion_cons (h0 h1 h2 h3 h4 h5 : Byte) (bs : List Byte) :
    headerVersion (h0 :: h1 :: h2 :: h3 :: h4 :: h5 :: bs) = h4.setWidth 16 ||| (h5.setWidth 16 <<< 8) :=
  le16_eq_or h4 h5

/-- Settles O38: rule by rule; the completion rule classifies the seven bytes in BUF and the one it takes. -/
theorem probeStartsAndEndsEarly : Obligations.ProbeStartsAndEndsEarly := by
  refine ⟨rfl, fun s hj => ⟨0, 0, ?start⟩, fun s j hj => exec_of_busy hj nofun,
    fun s j b q hj hop hq hmore hin => engineStep_of_probe hj hop hq hmore hin,
    fun s j h0 h1 h2 h3 h4 h5 h6 h7 q hj hop hi hn hin hread hq => ?complete,
    fun s j hj hop hq hEos => engineStep_of_probe_eos hj hop hq hEos,
    fun s j hj hop => exec_deadline_of_probe hj hop⟩
  case start =>
    split
    · next hgt => exact exec_probe_of_gt hj hgt
    · next hle => exact exec_probe_of_le hj (Nat.not_lt.1 hle)
  case complete =>
    rw [engineStep_of_probe_last hj hop hi hn hin hread hq]
    simp only [List.cons_append, headerMatches_cons, headerVersion_cons, decide_eq_true_eq]

/-! The run. -/

/-- A PROBE started from the idle state `s` that has taken the bytes `bs` of its header and sees `q` in RXQ (R180,
R181). -/
def State.probeTaken (s : State) (bs q : List Byte) : State :=
  { s with
    resp := some .okay
    ver := 0
    rxCnt := BitVec.ofNat 32 bs.length
    rxq := q
    buf := s.buf.place s.addr.toNat bs
    status := busyStatus 0x20
    job := some { op := .probe, a := s.addr, n := 8, i := BitVec.ofNat 32 bs.length } }

theorem exec_probe_eq_probeTaken {s : State} (hj : s.job = none) (hle : s.addr.toNat + 8 ≤ s.cfg.bufBytes) :
    exec .probe s = .next (s.probeTaken [] s.rxq) := exec_probe_of_le hj hle

/-- With an empty agenda, a PROBE takes a byte that leaves its header incomplete, and goes on (R104, R181). -/
theorem step_probeTaken {s : State} {bs q : List Byte} {b : Byte} (ha : s.agenda = []) (hlen : bs.length < 7)
    (hle : s.addr.toNat + 8 ≤ s.cfg.bufBytes) :
    step (s.probeTaken bs (b :: q)) = .next (s.probeTaken (bs ++ [b]) q) := by
  have hplace : (BitVec.ofNat 32 bs.length).toNat = bs.length := by bv_omega
  have hmore : BitVec.ofNat 32 bs.length + 1 ≠ 8 := by bv_omega
  have hin : s.addr.toNat + (BitVec.ofNat 32 bs.length).toNat < s.cfg.bufBytes := by omega
  rw [step_of_nil (s := s.probeTaken bs (b :: q)) ha,
    engineStep_of_probe (s := s.probeTaken bs (b :: q)) rfl rfl rfl hmore hin]
  simp only [State.probeTaken, hplace, Memory.place_concat, List.length_append, List.length_singleton, BitVec.ofNat_add]
  rfl

theorem run_probeTaken {s : State} {bs ds q : List Byte} (ha : s.agenda = []) (hlen : bs.length + ds.length < 8)
    (hle : s.addr.toNat + 8 ≤ s.cfg.bufBytes) :
    Host.Core.run core ds.length (s.probeTaken bs (ds ++ q)) = .next (s.probeTaken (bs ++ ds) q) := by
  induction ds generalizing bs with
  | nil => rw [List.append_nil]; rfl
  | cons d ds ih =>
    rw [List.length_cons] at hlen ⊢
    rw [List.cons_append, run_succ_of_step (step_probeTaken ha (by omega) hle), List.append_cons bs d ds]
    exact ih (by rw [List.length_append, List.length_singleton]; omega)

/-- With an empty agenda, a PROBE that has taken seven bytes takes the eighth, and ends OK (R104, R182). -/
theorem step_probeTaken_last {s : State} {bs q : List Byte} {b : Byte} (hj : s.job = none) (ha : s.agenda = [])
    (hlen : bs.length = 7) (hle : s.addr.toNat + 8 ≤ s.cfg.bufBytes) :
    step (s.probeTaken bs (b :: q)) = .next { s with
      resp := some .okay
      rxq := q
      rxCnt := 8
      buf := s.buf.place s.addr.toNat (bs ++ [b])
      ver := if headerMatches (bs ++ [b]) then headerVersion (bs ++ [b]) else 0
      status := { doneStatus 0x20 .ok with
        cls := if headerMatches (bs ++ [b]) then .detected else .notDetected } } := by
  have hread : (s.probeTaken bs (b :: q)).readSlice s.addr.toNat 7 = .ok bs :=
    hlen ▸ State.readSlice_place rfl (show _ ≤ s.cfg.bufBytes by omega)
  have hi : BitVec.ofNat 32 bs.length = 7 := by rw [hlen]; rfl
  rw [step_of_nil (s := s.probeTaken bs (b :: q)) ha,
    engineStep_of_probe_last (s := s.probeTaken bs (b :: q)) rfl rfl hi rfl hle hread rfl]
  simp only [State.probeTaken, Memory.place_concat, hlen]
  cases s; cases hj; rfl

/-- Settles O39: seven steps take all but the last byte and the eighth classifies; BUF is then the one before with the
header placed at ADDR. -/
theorem probeClassifiesTheHeader : Obligations.ProbeClassifiesTheHeader := by
  intro s h0 h1 h2 h3 h4 h5 h6 h7 rest hj ha hq hle
  have hseven := run_probeTaken (bs := []) (ds := [h0, h1, h2, h3, h4, h5, h6]) (q := h7 :: rest) ha (by simp) hle
  have hlast := step_probeTaken_last (bs := [h0, h1, h2, h3, h4, h5, h6]) (b := h7) (q := rest) hj ha rfl hle
  refine ⟨_, (exec_probe_eq_probeTaken hj hle).trans (by rw [hq]; rfl), _,
    (run_add hseven 1).trans (run_succ_of_step hlast 0), ?stored, fun y hy => ?frame, ?rest⟩
  case stored => exact State.readSlice_place (bs := [h0, h1, h2, h3, h4, h5, h6, h7]) rfl hle
  case frame => exact (Memory.read_place ..).trans (dif_neg (show ¬(_ ∧ y < s.addr.toNat + 8) by omega))
  case rest =>
    simp only [List.cons_append, List.nil_append, headerMatches_cons, headerVersion_cons, decide_eq_true_eq]
    rfl

end Sys2Proof.Machine
end

section
/-! What a PROBE over a stream that waits whole reports depends on the stream only (R182, R183, R214). -/

namespace Sys2Proof.Machine

/-- A machine whose step changes nothing stays where it is. -/
theorem run_of_step_eq_self {s : State} (h : step s = .next s) (k : Nat) : Host.Core.run core k s = .next s := by
  induction k with
  | zero => rfl
  | succ k ih => exact (run_succ_of_step h k).trans ih

/-! The three ways the nine turns go, by the length of the stream and EOS. -/

/-- Eight bytes wait: the PROBE classifies them, and the last turn finds the machine idle (R182). -/
theorem run_probe_of_header {s : State} {bs q : List Byte} (hj : s.job = none) (ha : s.agenda = [])
    (hlen : bs.length = 8) (hle : s.addr.toNat + 8 ≤ s.cfg.bufBytes) :
    Host.Core.run core 9 (s.probeTaken [] (bs ++ q)) = .next { s with
      resp := some .okay
      rxq := q
      rxCnt := 8
      buf := s.buf.place s.addr.toNat bs
      ver := if headerMatches bs then headerVersion bs else 0
      status := { doneStatus 0x20 .ok with cls := if headerMatches bs then .detected else .notDetected } } := by
  obtain ⟨xs, b, rfl⟩ := (List.eq_nil_or_concat' bs).resolve_left (by rintro rfl; cases hlen)
  have hxs : xs.length = 7 := by rw [List.length_append, List.length_singleton] at hlen; omega
  have hseven : Host.Core.run core 7 (s.probeTaken [] (xs ++ b :: q)) = .next (s.probeTaken xs (b :: q)) :=
    hxs ▸ run_probeTaken ha (by simp [hxs]) hle
  rw [List.append_assoc]
  refine (run_add hseven 2).trans ((run_succ_of_step (step_probeTaken_last hj ha hxs hle) 1).trans ?_)
  exact run_of_step_eq_self ((step_of_nil (by exact ha)).trans (engineStep_of_idle (by exact hj))) 1

/-- Fewer than eight bytes wait, and the stream has ended: the PROBE takes them and closes (R183). -/
theorem run_probe_of_eos {s : State} {bs : List Byte} (ha : s.agenda = []) (hEos : s.rxEos = true)
    (hlen : bs.length < 8) (hle : s.addr.toNat + 8 ≤ s.cfg.bufBytes) :
    Host.Core.run core 9 (s.probeTaken [] bs) =
      .next (((s.probeTaken bs []).setClass .notDetected).finish .closed) := by
  have htaken : Host.Core.run core bs.length (s.probeTaken [] (bs ++ [])) = .next (s.probeTaken bs []) :=
    run_probeTaken ha (by simpa using hlen) hle
  have hclose : step (s.probeTaken bs []) = .next (((s.probeTaken bs []).setClass .notDetected).finish .closed) :=
    (step_of_nil (by exact ha)).trans (engineStep_of_probe_eos rfl rfl rfl (by exact hEos))
  rw [List.append_nil] at htaken
  rw [show 9 = bs.length + (8 - bs.length + 1) by omega, run_add htaken, run_succ_of_step hclose]
  exact run_of_step_eq_self ((step_of_nil (by exact ha)).trans (engineStep_of_idle rfl)) _

/-- Fewer than eight bytes wait, and more may come: the PROBE takes them and waits (R104, R160). -/
theorem run_probe_of_empty {s : State} {bs : List Byte} (ha : s.agenda = []) (hEos : s.rxEos = false)
    (hlen : bs.length < 8) (hle : s.addr.toNat + 8 ≤ s.cfg.bufBytes) :
    Host.Core.run core 9 (s.probeTaken [] bs) = .next (s.probeTaken bs []) := by
  have htaken : Host.Core.run core bs.length (s.probeTaken [] (bs ++ [])) = .next (s.probeTaken bs []) :=
    run_probeTaken ha (by simpa using hlen) hle
  have hwait : step (s.probeTaken bs []) = .next (s.probeTaken bs []) :=
    (step_of_nil (by exact ha)).trans ((engineStep_of_isRx rfl rfl).trans (rxStep_of_empty _ rfl (by exact hEos)))
  rw [List.append_nil] at htaken
  rw [show 9 = bs.length + (9 - bs.length) by omega, run_add htaken]
  exact run_of_step_eq_self hwait _

/-! The report. -/

/-- What software sees of a PROBE: STATUS, VER, RXCNT, and the bytes still waiting (R182 to R184). -/
structure ProbeReport where
  status : Status
  ver : Half
  rxCnt : Word
  rxq : List Byte

def State.probeReport (s : State) : ProbeReport := ⟨s.status, s.ver, s.rxCnt, s.rxq⟩

/-- The report of a PROBE on `stream`, which has ended or not, as a function of these two alone (R182, R183, R214). -/
def probeReportOf (stream : List Byte) (ended : Bool) : ProbeReport :=
  let hdr := stream.take 8
  if hdr.length = 8 then
    { status := { doneStatus 0x20 .ok with cls := if headerMatches hdr then .detected else .notDetected }
      ver := if headerMatches hdr then headerVersion hdr else 0
      rxCnt := 8
      rxq := stream.drop 8 }
  else
    { status := if ended then { doneStatus 0x20 .closed with cls := .notDetected } else busyStatus 0x20
      ver := 0
      rxCnt := BitVec.ofNat 32 stream.length
      rxq := [] }

/-- Nine turns after its start, a PROBE with an empty agenda reports what its stream gives. -/
theorem probeReport_of_run {s u t : State} (hj : s.job = none) (ha : s.agenda = [])
    (hle : s.addr.toNat + 8 ≤ s.cfg.bufBytes) (hu : exec .probe s = .next u)
    (ht : Host.Core.run core 9 u = .next t) : t.probeReport = probeReportOf s.rxq s.rxEos := by
  cases (exec_probe_eq_probeTaken hj hle).symm.trans hu
  by_cases hfull : (s.rxq.take 8).length = 8
  · have hrun := run_probe_of_header (q := s.rxq.drop 8) hj ha hfull hle
    rw [List.take_append_drop] at hrun
    cases hrun.symm.trans ht
    exact (if_pos hfull).symm
  · have hshort : s.rxq.length < 8 := by rw [List.length_take] at hfull; omega
    refine Eq.trans ?_ (if_neg hfull).symm
    cases hEos : s.rxEos with
    | true => cases (run_probe_of_eos ha hEos hshort hle).symm.trans ht; rfl
    | false => cases (run_probe_of_empty ha hEos hshort hle).symm.trans ht; rfl

/-- Settles O41: each instance reports what its stream gives, and the two streams are one. -/
theorem probeDependsOnlyOnTheStream : Obligations.ProbeDependsOnlyOnTheStream := by
  intro s1 s2 u1 u2 t1 t2 hj1 hj2 ha1 ha2 hq hEos hle1 hle2 hu1 hu2 ht1 ht2
  have hsame : t1.probeReport = t2.probeReport :=
    calc t1.probeReport
      _ = probeReportOf s1.rxq s1.rxEos := probeReport_of_run hj1 ha1 hle1 hu1 ht1
      _ = probeReportOf s2.rxq s2.rxEos := by rw [hq, hEos]
      _ = t2.probeReport := (probeReport_of_run hj2 ha2 hle2 hu2 ht2).symm
  simpa only [State.probeReport, ProbeReport.mk.injEq] using hsame

end Sys2Proof.Machine
end

section
/-! Reset (R230, R231, R235): `State.blockReset` is what the reset input does, and `State.reset` meets the invariant. -/

namespace Sys2Proof.Machine

/-- The reset input acts on every state, idle or busy. -/
theorem step_of_reset {s : State} {rest : List Event} (ha : s.agenda = .reset :: rest) :
    step s = .next ({ s with agenda := rest } : State).blockReset :=
  step_of_cons ha

theorem Memory.read_nil (x : Nat) : Memory.read [] x = none := rfl

/-- After a reset BUSY is 0 with every other field of STATUS (R22). -/
theorem State.blockReset_statusWord (s : State) : s.blockReset.statusWord = 0 := by
  rw [State.statusWord, State.blockReset_status, State.busy, State.blockReset_job]
  decide

/-- CRCOUT is the complement of CRC's reset value (R30). -/
theorem State.blockReset_crcOut (s : State) : s.blockReset.crcOut = 0 := by
  rw [State.crcOut, State.blockReset_crc]
  decide

/-- Settles O55: the registers by the rules of `State.blockReset`, whose buffer is the empty memory; the ports and the
parameters it does not write. -/
theorem resetRestoresTheRegisters : Obligations.ResetRestoresTheRegisters := by
  intro s rest ha
  refine ⟨_, step_of_reset ha, State.blockReset_statusWord _, ?_⟩
  simp [State.blockReset_crcOut, Memory.read_nil]

/-- The STATUS of reset is an idle machine's: nothing has finished, so it reports no RESULT, CLASS or MATCH. -/
theorem statusOk_reset : StatusOk Status.reset where
  fresh _ := rfl
  raised := nofun
  classed := nofun
  detected := nofun
  matchedBy := nofun

/-- Settles O56: the machine is idle, no byte of BUF is defined, and STATUS is 0. -/
theorem resetStateMeetsTheInvariant : Obligations.ResetStateMeetsTheInvariant :=
  Inv.of_idle (s := State.reset) .nil nofun rfl statusOk_reset

end Sys2Proof.Machine
end
